-- ==== Sys2Proof/Word.lean ====
section
/-!
DEFINITION. The fixed widths of the DES core (spec `00_scope.md` rule R6) and nothing else.
Every value of this hardware is an unsigned integer of a stated width, so every one is a bit vector.
-/

namespace Sys2Proof

/-- A byte of a sequencer buffer (R31). -/
abbrev Byte := BitVec 8

/-- A 64-bit block, bit 63 being position 1 (R6, R51). -/
abbrev Block := BitVec 64

/-- The 64-bit key of LOADKEY, its eight parity bits included (R6, R51). -/
abbrev Key := BitVec 64

/-- A half block, the width of `L` and `R` (R6, R13). -/
abbrev Half := BitVec 32

/-- A half of the selected key bits, the width of `C` and `D` (R6, R14). -/
abbrev KeyHalf := BitVec 28

/-- A round subkey: exactly 48 bits (R6, R10). -/
abbrev Subkey := BitVec 48

/-- A subkey index, the `u4` of RDSK and of the rounds (R30, R38). -/
abbrev SubkeyIndex := BitVec 4

/-- The sixteen subkeys of one key, in order: the contents of `KS` (R10). -/
abbrev Schedule := Vector Subkey 16

/-- The 67-bit command word `op ‖ arg` (R48). -/
abbrev CommandWord := BitVec 67

/-- The 66-bit response word `status ‖ data` (R52). -/
abbrev ResponseWord := BitVec 66

end Sys2Proof
end

