-- ==== Sys2Proof/Config.lean ====
section
/-!
DEFINITION. The free values of the model: what the spec calls unspecified and the machine goes on after.
Each is an opaque constant, so nothing can be proved of the value it gives; the argument is the count
`State.fresh`, so that two unspecified values met at different times are two different constants.
The constant tables of the cipher (R20) are in `Machine/Tables.lean`. The latencies `T_LOADKEY`, `T_BLOCK`,
`T_RDSK`, `T_ERR` (R180), `alloc_ok` and `MAX_LEN` (R140) are not constants here: they are arguments that the
host's events carry (`Event.edge`, `Event.encbuf`, `Event.decbuf`), so every value of them is a run of the model.
-/

namespace Sys2Proof.Config

/-- The contents of `KS` after a reset: "neither zeroised nor retained" (R24, R165, R166; log entry 5). -/
opaque freeKS : Nat → Schedule

/-- The value of `L` between commands and after a reset (R13, R24; log entry 4). -/
opaque freeL : Nat → Half

/-- The value of `R` between commands and after a reset (R13, R24; log entry 4). -/
opaque freeR : Nat → Half

/-- The value of `C` between commands and after a reset (R14, R24; log entry 4). -/
opaque freeC : Nat → KeyHalf

/-- The value of `D` between commands and after a reset (R14, R24; log entry 4). -/
opaque freeD : Nat → KeyHalf

/-- The value of `STG` between commands and after a reset (R15, R24, R124; log entry 4). -/
opaque freeSTG : Nat → BitVec 5

/-- The value of `DIR` between commands and after a reset (R15, R24, R124; log entry 4). -/
opaque freeDIR : Nat → Bool

/-- The value of `RSP` after a reset (R24, R165; log entry 5). -/
opaque freeRSP : Nat → ResponseWord

end Sys2Proof.Config
end

