-- ==== Sys2Proof/Syntax.lean ====
section
/-!
DEFINITION. The commands of the DES core: one constructor per row of `spec/opcode_table.json`, which lists
every value of the 3-bit opcode (R49). An operand is the slice of `arg` that the command uses (R51); bits that a
command ignores are no operand, since words that differ only there "are the same command" (R55).
-/

namespace Sys2Proof

/-- The commands (R49, R51). ENCBUF and DECBUF have no command word (R58): they are host events
(`Machine/State.lean`), not commands. -/
inductive Instr where
  /-- `LOADKEY`, opcode 001 (R104). -/
  | loadkey (key : Key)
  /-- `ENCRYPT`, opcode 010 (R117). -/
  | encrypt (block : Block)
  /-- `DECRYPT`, opcode 011 (R118). -/
  | decrypt (block : Block)
  /-- `RDSK`, opcode 100 (R110). -/
  | rdsk (idx : SubkeyIndex)
  /-- The reserved opcode 000 (R54, R147). -/
  | reserved0
  /-- The reserved opcode 101 (R54, R147). -/
  | reserved5
  /-- The reserved opcode 110 (R54, R147). -/
  | reserved6
  /-- The reserved opcode 111 (R54, R147). -/
  | reserved7
  deriving DecidableEq, Repr

end Sys2Proof
end

