-- ==== Sys2Proof/WellFormed.lean ====
section
/-!
DEFINITION. What counts as a well-formed program line of the spec's textual form (R57).
The operands of `Instr` have the exact widths of R51, so every `Instr` is well formed and the one place where an
ill-formed command can be written down is the text: `RDSK 16`, a key of 17 digits, a `CMD` word of 68 bits.
-/

namespace Sys2Proof

/-- A line of a program in the textual form of R57, each operand the number that is written there. -/
inductive Line where
  /-- `LOADKEY 0x<16 hex digits>`. -/
  | loadkey (key : Nat)
  /-- `ENCRYPT 0x<16 hex digits>`. -/
  | encrypt (block : Nat)
  /-- `DECRYPT 0x<16 hex digits>`. -/
  | decrypt (block : Nat)
  /-- `RDSK <n>`, `n` decimal. -/
  | rdsk (n : Nat)
  /-- `CMD 0x<17 hex digits>`, any raw command word. -/
  | cmd (word : Nat)
  /-- `RESET`, the reset event. -/
  | reset
  deriving DecidableEq, Repr

/-- The operand of a line is in the range that R57 gives it: 16 hexadecimal digits, 0 to 15, or 17
hexadecimal digits of which the first is 0 to 7. -/
def Line.wf : Line → Bool
  | .loadkey k => k < 2 ^ 64
  | .encrypt b => b < 2 ^ 64
  | .decrypt b => b < 2 ^ 64
  | .rdsk n => n < 16
  | .cmd w => w < 2 ^ 67
  | .reset => true

/-- The line that R57 writes for a command; a reserved opcode has no mnemonic there and is written `CMD` with
a zero argument. -/
def Line.ofInstr : Instr → Line
  | .loadkey key => .loadkey key.toNat
  | .encrypt block => .encrypt block.toNat
  | .decrypt block => .decrypt block.toNat
  | .rdsk idx => .rdsk idx.toNat
  | .reserved0 => .cmd 0
  | .reserved5 => .cmd (5 * 2 ^ 64)
  | .reserved6 => .cmd (6 * 2 ^ 64)
  | .reserved7 => .cmd (7 * 2 ^ 64)

/-- A command is well formed when the line that writes it is. -/
def Instr.wf (i : Instr) : Bool := (Line.ofInstr i).wf

end Sys2Proof
end

