-- ==== Sys2Proof/Decode.lean ====
section
/-!
DEFINITION. The decoder of the 67-bit command word (R48 to R51, R54 to R56, R59), the encoder, the opcode table as
mask and match, and the textual form of words (R57).
-/

namespace Sys2Proof

/-! ### Fields of a command word -/

/-- `op`, bits 66:64 of the command word (R48). -/
def opField (w : CommandWord) : BitVec 3 := w.extractLsb' 64 3

/-- `arg`, bits 63:0 of the command word (R48). -/
def argField (w : CommandWord) : BitVec 64 := w.extractLsb' 0 64

/-- `idx = arg[3:0]`, the operand of RDSK (R51). -/
def idxField (w : CommandWord) : SubkeyIndex := (argField w).extractLsb' 0 4

/-! ### The decoder -/

/-- The command a word stands for. The opcode alone selects it, and every one of its eight values is listed
(R49, R59). -/
def decode (w : CommandWord) : Instr :=
  match (opField w).toFin with
  | 0 => .reserved0
  | 1 => .loadkey (argField w)
  | 2 => .encrypt (argField w)
  | 3 => .decrypt (argField w)
  | 4 => .rdsk (idxField w)
  | 5 => .reserved5
  | 6 => .reserved6
  | 7 => .reserved7

/-- Why a number or a byte sequence is no command word. -/
inductive DecodeError where
  /-- The number has a bit above bit 66; every command is 67 bits long (R56). Safe: no such value can stand
  on the `cmd` port (R45). -/
  | wordTooWide
  /-- A stored command takes nine bytes (log entry 8). Safe: the hardware itself stores no command. -/
  | notNineBytes
  deriving DecidableEq, Repr

/-- The decoder on a number whose bit `k` is bit `k` of the command word. -/
def decodeNat (n : Nat) : Except DecodeError Instr :=
  if n < 2 ^ 67 then .ok (decode (BitVec.ofNat 67 n)) else .error .wordTooWide

/-- The number whose bits 7:0 are the first byte, bits 15:8 the second, and so on (log entry 8). -/
def numberOfBytes : List Byte → Nat
  | [] => 0
  | b :: bs => b.toNat + 2 ^ 8 * numberOfBytes bs

/-- The decoder on stored bytes, total on any byte sequence (log entry 8). -/
def decodeBytes (bs : List Byte) : Except DecodeError Instr :=
  if bs.length = 9 then decodeNat (numberOfBytes bs) else .error .notNineBytes

/-- The command that the decoder reads from the opcode table's numbering of a word: bit 0 the least
significant, every bit at or above `nbits` zero. -/
def decodeTableWord (nbits w : Nat) : Option Instr :=
  match decodeNat (w % 2 ^ nbits) with
  | .ok i => some i
  | .error _ => none

/-! ### The encoder -/

/-- The opcode of a command (R49). -/
def opcodeOf : Instr → BitVec 3
  | .reserved0 => 0b000#3
  | .loadkey _ => 0b001#3
  | .encrypt _ => 0b010#3
  | .decrypt _ => 0b011#3
  | .rdsk _ => 0b100#3
  | .reserved5 => 0b101#3
  | .reserved6 => 0b110#3
  | .reserved7 => 0b111#3

/-- The argument of a command, with zeros in the bits it ignores (R51, R57). -/
def argumentOf : Instr → BitVec 64
  | .loadkey key => key
  | .encrypt block => block
  | .decrypt block => block
  | .rdsk idx => idx.setWidth 64
  | .reserved0 => 0
  | .reserved5 => 0
  | .reserved6 => 0
  | .reserved7 => 0

/-- The command word `op * 2^64 + arg` (R48). -/
def commandWord (op : BitVec 3) (arg : BitVec 64) : CommandWord := op ++ arg

/-- The word of a command. -/
def encode (i : Instr) : CommandWord := commandWord (opcodeOf i) (argumentOf i)

/-- A command word with zeros in the argument bits that its opcode ignores (R55): bits 63:4 of RDSK, all of the
argument of a reserved opcode. -/
def clearIgnored (w : CommandWord) : CommandWord :=
  match (opField w).toFin with
  | 1 => w
  | 2 => w
  | 3 => w
  | 4 => w &&& 0x7000000000000000F#67
  | 0 => w &&& 0x70000000000000000#67
  | 5 => w &&& 0x70000000000000000#67
  | 6 => w &&& 0x70000000000000000#67
  | 7 => w &&& 0x70000000000000000#67

/-! ### The opcode table as mask and match -/

/-- A row of `spec/opcode_table.json`: a word belongs to it when `word &&& mask = pattern`. -/
structure OpcodeRow where
  mnemonic : String
  mask : CommandWord
  pattern : CommandWord
  deriving DecidableEq, Repr

/-- The word belongs to the row. -/
def OpcodeRow.covers (r : OpcodeRow) (w : CommandWord) : Bool := w &&& r.mask == r.pattern

/-- The rows of `spec/opcode_table.json`, in its order (R49). -/
def opcodeTable : List OpcodeRow :=
  [ ⟨"LOADKEY", 0x70000000000000000#67, 0x10000000000000000#67⟩,
    ⟨"ENCRYPT", 0x70000000000000000#67, 0x20000000000000000#67⟩,
    ⟨"DECRYPT", 0x70000000000000000#67, 0x30000000000000000#67⟩,
    ⟨"RDSK", 0x70000000000000000#67, 0x40000000000000000#67⟩,
    ⟨"RESERVED_0", 0x70000000000000000#67, 0x00000000000000000#67⟩,
    ⟨"RESERVED_5", 0x70000000000000000#67, 0x50000000000000000#67⟩,
    ⟨"RESERVED_6", 0x70000000000000000#67, 0x60000000000000000#67⟩,
    ⟨"RESERVED_7", 0x70000000000000000#67, 0x70000000000000000#67⟩ ]

/-- The mnemonic of a command as the opcode table spells it. -/
def mnemonicOf : Instr → String
  | .loadkey _ => "LOADKEY"
  | .encrypt _ => "ENCRYPT"
  | .decrypt _ => "DECRYPT"
  | .rdsk _ => "RDSK"
  | .reserved0 => "RESERVED_0"
  | .reserved5 => "RESERVED_5"
  | .reserved6 => "RESERVED_6"
  | .reserved7 => "RESERVED_7"

/-! ### The textual form (R57) -/

/-- The command word of a program line; `RESET` is "not a command word", and an ill-formed line has none. -/
def assemble (l : Line) : Option CommandWord :=
  if l.wf then
    match l with
    | .loadkey k => some (encode (.loadkey (BitVec.ofNat 64 k)))
    | .encrypt b => some (encode (.encrypt (BitVec.ofNat 64 b)))
    | .decrypt b => some (encode (.decrypt (BitVec.ofNat 64 b)))
    | .rdsk n => some (encode (.rdsk (BitVec.ofNat 4 n)))
    | .cmd w => some (BitVec.ofNat 67 w)
    | .reset => none
  else none

/-- The hexadecimal digit of a number below 16. -/
def hexDigit (n : Nat) : Char :=
  ['0', '1', '2', '3', '4', '5', '6', '7', '8', '9', 'A', 'B', 'C', 'D', 'E', 'F'].getD n '?'

/-- The low `k` hexadecimal digits of a number, most significant first. -/
def hexDigits : Nat → Nat → List Char
  | 0, _ => []
  | k + 1, n => hexDigit (n / 16 ^ k % 16) :: hexDigits k n

/-- A command word printed as 17 hexadecimal digits: the first is `op`, the other 16 are `arg` (R57). -/
def printCommand (w : CommandWord) : List Char := '0' :: 'x' :: hexDigits 17 w.toNat

/-- A response word printed as 17 hexadecimal digits: the first is `status`, the other 16 are `data` (R57). -/
def printResponse (w : ResponseWord) : List Char := '0' :: 'x' :: hexDigits 17 w.toNat

end Sys2Proof
end

