-- ==== Sys2Proof/Machine/State.lean ====
section
/-!
DEFINITION. The state of the machine as plain data: the registers of the DES core (spec `10_state.md`), the operation
that the buffer sequencer has in progress (`46_buffer_codec.md`), and the host's program (R177). With them the
events, the errors and results, the state after reset, and the reasons a step can stop.
-/

namespace Sys2Proof.Machine

/-! ### Errors and results of the buffer operations (R145) -/

/-- The errors a buffer operation can report: exactly the sequencer results of R145. -/
inductive BufError where
  /-- `AllocationFailure` (R140). -/
  | allocationFailure
  /-- `InvalidLength(Zero)` (R135). -/
  | invalidLengthZero
  /-- `InvalidLength(NotMultipleOf8)` (R135). -/
  | invalidLengthNotMultipleOf8
  /-- `InvalidParameter(NoKey)` (R141). -/
  | invalidParameterNoKey
  deriving DecidableEq, Repr

/-- The result of a buffer operation: the whole output and its length, or an error and no output (R43, R131, R150). -/
inductive BufResult where
  | ok (bytes : List Byte) (length : Nat)
  | error (e : BufError)
  deriving DecidableEq, Repr

/-- A buffer operation that the sequencer has begun and not finished (R132, R137). -/
structure Job where
  /-- The direction of its block commands: `false` for ENCBUF, `true` for DECBUF. -/
  dir : Bool
  /-- The bytes it reads its blocks from: the Padded Buffer of ENCBUF, the input of DECBUF (R131, R136). -/
  source : List Byte
  /-- The output buffer, exposed only when the whole operation has succeeded (R43). -/
  out : List Byte
  /-- The index of its next block command, in ascending order (R132). -/
  next : Nat
  deriving DecidableEq, Repr

/-! ### Commands in flight, pins and events -/

/-- The class of the command that was accepted last; it says what the remaining stages are while `BUSY` is 1.
The spec's stages imply it and name no register for it (DEDUCED, log entry 6). -/
inductive Flight where
  /-- LOADKEY, whose stages are those of R106 to R108. -/
  | keyLoad
  /-- ENCRYPT or DECRYPT with a schedule loaded, whose stages are those of R121 to R123. -/
  | block
  /-- A command with no stages (RDSK, a reserved opcode, a command answered `ERR_NOKEY`): its response is settled
  at acceptance (R22) and still to be given. -/
  | answer (rsp : ResponseWord)
  deriving DecidableEq, Repr

/-- The input pins sampled at a rising edge of `clk` (R45, R184). -/
structure Pins where
  rst : Bool
  cmdValid : Bool
  cmd : CommandWord
  deriving DecidableEq, Repr

/-- What the host does next (R177: "A program is a finite sequence of commands, pseudo-operations and `RESET`
events"), and single clock edges for the staged description (R164). Commands, resets and buffer operations are those of
one synchronous host; pins that move at any time are clock edges. -/
inductive Event where
  /-- The host presents a command word and holds it until its response (R46, R47): one transaction. -/
  | command (w : CommandWord)
  /-- The host asserts `rst` at one edge (R165), after the buffer operation in progress, if any. -/
  | reset
  /-- The host starts `ENCBUF bytes`; `allocOk` is the free outcome of the allocation (R131, R140). -/
  | encbuf (bytes : List Byte) (allocOk : Bool)
  /-- The host starts `DECBUF bytes` (R136, R140). -/
  | decbuf (bytes : List Byte) (allocOk : Bool)
  /-- The sequencer issues the next block command of the operation in progress (R132, R137). -/
  | sequencerTurn
  /-- One rising edge with the given pins, at which the core does up to `stages` stages beyond an acceptance; the
  spec leaves the number of cycles a stage takes open (R124, R180; log entry 10). -/
  | edge (pins : Pins) (stages : Nat)
  deriving DecidableEq, Repr

/-! ### The state -/

/-- The whole machine. The registers of the core are those of the complete inventory of R17. -/
structure State where
  /-- `KS`, the subkey store (R10). -/
  ks : Schedule
  /-- `KVALID`: `KS` holds a complete schedule loaded since the last reset (R11). -/
  kvalid : Bool
  /-- `L`, the left half of the block being processed (R13). -/
  l : Half
  /-- `R`, the right half of the block being processed (R13). -/
  r : Half
  /-- `C`, the first rotating half of the key schedule (R14). -/
  c : KeyHalf
  /-- `D`, the second rotating half of the key schedule (R14). -/
  d : KeyHalf
  /-- `STG`, the stage number (R15, R16). -/
  stg : BitVec 5
  /-- `DIR`, the subkey order: `false` forward, `true` reverse (R15, R50). -/
  dir : Bool
  /-- `BUSY`: a command has been accepted and not yet answered (R15, R47). -/
  busy : Bool
  /-- `RSP`, the response register (R15, R52). -/
  rsp : ResponseWord
  /-- `RSP_VALID`: `RSP` holds the response of this cycle (R15, R45). -/
  rspValid : Bool
  /-- The class of the command accepted last (the model's own field; log entry 6). -/
  flight : Flight
  /-- The number of times free values have been drawn (the model's own field; log entry 7). -/
  fresh : Nat
  /-- The sequencer's operation in progress, if any (R132, R137). -/
  job : Option Job
  /-- The results of the buffer operations that have ended, oldest first (R145, R150, R177; log entry 13). -/
  results : List BufResult
  /-- What the host does from here on, next event first (R177; log entry 2). -/
  program : List Event
  deriving DecidableEq, Repr

/-- The machine right after reset. `KVALID`, `BUSY` and `RSP_VALID` are 0 (R24, R165); the registers whose value
R24 leaves unspecified are zero by the model's choice (DESIGN CHOICE, log entry 3), and no program is placed. -/
def State.reset : State where
  ks := Vector.replicate 16 0
  kvalid := false
  l := 0
  r := 0
  c := 0
  d := 0
  stg := 0
  dir := false
  busy := false
  rsp := 0
  rspValid := false
  flight := .keyLoad
  fresh := 0
  job := none
  results := []
  program := []

/-! ### Why a step can stop -/

/-- The faults of the machine: there are none. "A model has no 'halted' or 'stuck' state for this hardware" (R152), and
every accepted command is answered (R183); errors are responses and results, not faults (R145). The empty type is
exact: no step of this model can raise a fault. -/
inductive Fault where
  deriving DecidableEq, Repr

/-- The refusals of the machine. -/
inductive Refusal where
  /-- A command without a meaning, named by its mnemonic. Raised by no arm of `exec`: every row of the opcode
  table has its meaning. It would be safe: a refused command proves nothing about the hardware. -/
  | notModelled (mnemonic : String)
  deriving DecidableEq, Repr

end Sys2Proof.Machine
end

