-- ==== Sys2Proof/Machine/Flags.lean ====
section
/-!
DEFINITION. The status values of the machine (R18): the 2-bit status of a response (R52) and the flag `KVALID` (R11).
The hardware has no arithmetic flag and no sticky error flag (R18).
-/

namespace Sys2Proof.Machine

/-- The status of a response: the three values that a rule produces. The code 11 is "never produced" (R52), so it has
no constructor. -/
inductive Status where
  /-- `OK`, code 00. -/
  | ok
  /-- `ERR_NOKEY`, code 01: no schedule is loaded (R146). -/
  | errNoKey
  /-- `ERR_ILLOP`, code 10: a reserved opcode (R147). -/
  | errIllOp
  deriving DecidableEq, Repr

/-- The 2-bit code of a status (R52). -/
def Status.code : Status → BitVec 2
  | .ok => 0b00#2
  | .errNoKey => 0b01#2
  | .errIllOp => 0b10#2

/-- The response word `status ‖ data` (R52). -/
def responseWord (status : Status) (data : BitVec 64) : ResponseWord := status.code ++ data

/-- `status`, bits 65:64 of a response word (R52). -/
def responseStatus (w : ResponseWord) : BitVec 2 := w.extractLsb' 64 2

/-- `data`, bits 63:0 of a response word (R52). -/
def responseData (w : ResponseWord) : BitVec 64 := w.extractLsb' 0 64

/-- A response as R57 writes it, after the arrow; code 11 comes from no rule and has no text of its own there. -/
def responseText (w : ResponseWord) : List Char :=
  match (responseStatus w).toFin with
  | 0 => "OK 0x".toList ++ hexDigits 16 (responseData w).toNat
  | 1 => "ERR_NOKEY".toList
  | 2 => "ERR_ILLOP".toList
  | 3 => "status 11".toList

/-- `KVALID <- 1`: a complete schedule is in `KS` (R104, R108). -/
def setKvalid (s : State) : State := { s with kvalid := true }

/-- `KVALID <- 0`: by reset (R165) and at the first stage of a key load (R106). -/
def clearKvalid (s : State) : State := { s with kvalid := false }

end Sys2Proof.Machine
end

