-- ==== Sys2Proof/Machine/Permute.lean ====
section
/-!
DEFINITION. Bit positions, the permutation engine (spec `41_permutation_engine.md`), table lookups and the 28-bit
rotation: the bit-level functions that the cipher is made of. All are pure and total (R9).
-/

namespace Sys2Proof.Machine

/-- `msb(v, W, p)`: the bit at position `p`, counted from 1 at the most significant end, that is `v[W - p]` (R7). -/
def msb {w : Nat} (v : BitVec w) (p : Nat) : Bool := v.getLsbD (w - p)

/-- A permutation or selection table from `win` bits to `wout` bits: "table length equals the output width" and
"table values are always valid 1..W_in" (R65). A malformed table cannot be built, which is the refusal that R83
asks for. -/
structure Table (win wout : Nat) where
  /-- The source position of each output position, in order (R65). -/
  positions : List Nat
  /-- The table has one entry for each output bit. -/
  length_eq : positions.length = wout := by decide
  /-- Every entry is a position of the source value. -/
  in_range : ∀ p ∈ positions, 1 ≤ p ∧ p ≤ win := by decide

/-- `T[i]`, the entry at the 1-based index `i` (R7); an index outside the table gives 0, and none is used. -/
def Table.entry {win wout : Nat} (t : Table win wout) (i : Nat) : Nat := t.positions.getD (i - 1) 0

/-- One turn of the loop of R80: the selected source bit is shifted in at the least significant end. -/
def shiftIn {win wout : Nat} (v : BitVec win) (out : BitVec wout) (p : Nat) : BitVec wout :=
  (out <<< 1) ||| (BitVec.ofBool (msb v p)).setWidth wout

/-- `permute(v, W_in, T)`, in the loop form of R80: one turn for each table entry, in order. -/
def permute {win wout : Nat} (t : Table win wout) (v : BitVec win) : BitVec wout :=
  t.positions.foldl (shiftIn v) 0#wout

/-- An S-box: 64 entries of 4 bits (R65, R73). -/
abbrev SBox := Vector (BitVec 4) 64

/-- The entry of an S-box at a 6-bit address. -/
def SBox.lookup (t : SBox) (j : BitVec 6) : BitVec 4 := t[j.toNat]'j.isLt

/-- `rotl28(x, n)`: left rotation of a 28-bit value by `n` in 1, 2 (R111 and the notation of `00_scope.md`). -/
def rotl28 (x : KeyHalf) (n : Nat) : KeyHalf := (x <<< n) ||| (x >>> (28 - n))

end Sys2Proof.Machine
end

