-- ==== Sys2Proof/Machine/Cipher.lean ====
section
/-!
DEFINITION. The functions of the cipher: S-box substitution (`42_sbox.md`), the round function (`43_feistel.md`), the
key schedule (`44_key_schedule.md`) and the block function (`45_block_cipher.md`). All are pure and total (R9).
-/

namespace Sys2Proof.Machine

/-! ### S-box substitution (R90) -/

/-- The group `g_k` of a 48-bit value, `k` = 1 to 8, group 1 the most significant six bits (R90). -/
def group (x : BitVec 48) (k : Nat) : BitVec 6 := x.extractLsb' (48 - 6 * k) 6

/-- The row of a group: its two outer bits, the group's most significant bit the high bit (R90, R91). -/
def rowOf (g : BitVec 6) : BitVec 2 := BitVec.ofBool (g.getLsbD 5) ++ BitVec.ofBool (g.getLsbD 0)

/-- The column of a group: its middle four bits (R90). -/
def colOf (g : BitVec 6) : BitVec 4 := g.extractLsb' 1 4

/-- The row-major index `16*row + col` of a group, as the address `row ‖ col` (R73, R92). -/
def rowMajor (g : BitVec 6) : BitVec 6 := rowOf g ++ colOf g

/-- `sbox(x)`: each box looks up its own group, and the nibbles stand most significant first (R90). -/
def sbox (x : BitVec 48) : BitVec 32 :=
  tableS1.lookup (rowMajor (group x 1)) ++ tableS2.lookup (rowMajor (group x 2)) ++
  tableS3.lookup (rowMajor (group x 3)) ++ tableS4.lookup (rowMajor (group x 4)) ++
  tableS5.lookup (rowMajor (group x 5)) ++ tableS6.lookup (rowMajor (group x 6)) ++
  tableS7.lookup (rowMajor (group x 7)) ++ tableS8.lookup (rowMajor (group x 8))

/-- `sbox(x)` from the directly addressed tables, the other form that R76 and R92 allow. -/
def sboxDirect (x : BitVec 48) : BitVec 32 :=
  tableSD1.lookup (group x 1) ++ tableSD2.lookup (group x 2) ++
  tableSD3.lookup (group x 3) ++ tableSD4.lookup (group x 4) ++
  tableSD5.lookup (group x 5) ++ tableSD6.lookup (group x 6) ++
  tableSD7.lookup (group x 7) ++ tableSD8.lookup (group x 8)

/-! ### The round function (R95) -/

/-- `f(R, K)`: expansion, key mixing, substitution, permutation (R95). -/
def roundFunction (r : Half) (k : Subkey) : Half :=
  permute tableP (sbox (permute tableE r ^^^ k))

/-! ### The key schedule (R100) -/

/-- The 28-bit halves `C` and `D` of the selected key bits: `C` the first 28, `D` the last 28 (R100, R101). -/
def keyHalves (key : Key) : KeyHalf × KeyHalf :=
  let cd := permute tablePC1 key
  (cd.extractLsb' 28 28, cd.extractLsb' 0 28)

/-- The subkey selected from the rotated halves, `permute(c ‖ d, 56, PC2)` (R100). -/
def selectSubkey (c d : KeyHalf) : Subkey := permute tablePC2 (c ++ d)

/-- The rounds of the key schedule for the given rotation amounts: rotate both halves, then select, and go on from
the rotated halves (R100). -/
def scheduleRounds : List Nat → KeyHalf → KeyHalf → List Subkey
  | [], _, _ => []
  | n :: ns, c, d => selectSubkey (rotl28 c n) (rotl28 d n) :: scheduleRounds ns (rotl28 c n) (rotl28 d n)

/-- One subkey for each rotation amount: "exactly 16 subkeys in order" (R100). -/
theorem scheduleRounds_length (ns : List Nat) (c d : KeyHalf) : (scheduleRounds ns c d).length = ns.length := by
  induction ns generalizing c d with
  | nil => rfl
  | cons n ns ih => simp [scheduleRounds, ih]

/-- `schedule(key)` (R100). -/
def schedule (key : Key) : Schedule :=
  ⟨(scheduleRounds shifts.toList (keyHalves key).1 (keyHalves key).2).toArray, by
    simp [scheduleRounds_length]⟩

/-! ### The block function (R115) -/

/-- `sel(dir, n)`: the index of the subkey of round `n`, forward when `dir` is 0 (`false`) and reverse when it is 1
(R116). -/
def sel (dir : Bool) (n : SubkeyIndex) : SubkeyIndex := if dir then 15 - n else n

/-- Read one entry of a schedule; every 4-bit index is legal (R38). -/
def subkeyAt (ks : Schedule) (i : SubkeyIndex) : Subkey := ks[i.toNat]'i.isLt

/-- One Feistel round: `L_next = R`, `R_next = L XOR f(R, k)`, both from the old halves (R115, R122). -/
def feistelRound (k : Subkey) (lr : Half × Half) : Half × Half :=
  (lr.2, lr.1 ^^^ roundFunction lr.2 k)

/-- The initial permutation and the split: `L` the high half, `R` the low half (R115, R121). -/
def initialHalves (block : Block) : Half × Half :=
  let x := permute tableIP block
  (x.extractLsb' 32 32, x.extractLsb' 0 32)

/-- The first `n` rounds in the given direction (R115, R116). -/
def cryptRounds (ks : Schedule) (dir : Bool) : Nat → Half × Half → Half × Half
  | 0, lr => lr
  | n + 1, lr => feistelRound (subkeyAt ks (sel dir (BitVec.ofNat 4 n))) (cryptRounds ks dir n lr)

/-- The preoutput `R ‖ L`, right half first, and the final permutation (R115, R120, R123). -/
def finalBlock (lr : Half × Half) : Block := permute tableFP (lr.2 ++ lr.1)

/-- `crypt(B, KS, dir)`: the one block datapath of both directions (R115, R119). -/
def crypt (block : Block) (ks : Schedule) (dir : Bool) : Block :=
  finalBlock (cryptRounds ks dir 16 (initialHalves block))

end Sys2Proof.Machine
end

