-- ==== Sys2Proof/Machine/Operands.lean ====
section
/-!
DEFINITION. The operand forms of the commands (R51, R53) and the bytes of sequencer buffers (R31, R32). A command's own
operand is decoded in `Decode.lean`; what remains is the implicit operand `KS`, the widening of a subkey to the
response's data field, and the big-endian conversion between eight bytes and a block.
-/

namespace Sys2Proof.Machine

/-! ### The subkey store as an operand -/

/-- `KS[i]` (R10, R110). -/
def readKS (s : State) (i : SubkeyIndex) : Subkey := subkeyAt s.ks i

/-- `KS[i] <- k` (R107). -/
def writeKS (s : State) (i : SubkeyIndex) (k : Subkey) : State :=
  { s with ks := s.ks.set i.toNat k i.isLt }

/-- `zext_64`: a subkey in the low 48 bits of the data field, zeros above (R53). -/
def zext64 (k : Subkey) : BitVec 64 := k.setWidth 64

/-! ### Bytes of a buffer -/

/-- Byte `j` of a byte sequence. The sequencer reads only indices below the length (R131, R136); elsewhere the model
answers 0 (log entry 13). -/
def byteAt (buf : List Byte) (j : Nat) : Byte := buf.getD j 0

/-- `MemRead(buf, a, 8)`: the big-endian load of one block, `buf[a]` the most significant byte (R31). -/
def memRead (buf : List Byte) (a : Nat) : Block :=
  byteAt buf a ++ byteAt buf (a + 1) ++ byteAt buf (a + 2) ++ byteAt buf (a + 3) ++
  byteAt buf (a + 4) ++ byteAt buf (a + 5) ++ byteAt buf (a + 6) ++ byteAt buf (a + 7)

/-- Byte `j` of a block in big-endian order, `v[63-8j : 56-8j]` (R32). -/
def blockByte (v : Block) (j : Nat) : Byte := v.extractLsb' (56 - 8 * j) 8

/-- `MemWrite(buf, a, 8, v)`: the big-endian store of one block (R32). -/
def memWrite (buf : List Byte) (a : Nat) (v : Block) : List Byte :=
  (List.range 8).foldl (fun b j => b.set (a + j) (blockByte v j)) buf

end Sys2Proof.Machine
end

