-- ==== Sys2Proof/Machine/Ops.lean ====
section
/-!
DEFINITION. The shared operations: responding, answering an error, ending a key load or a block command, the reset event.
This hardware takes no exception in the usual sense: "Reporting an error saves no state, changes no mode and no mask,
pushes nothing, and transfers control nowhere" (R154), and there is nothing to return from (R155). What it has in
that place is the error response, which is `reject`.
-/

namespace Sys2Proof.Machine

/-! ### Responses -/

/-- `respond(status, data)`: the response word goes to `RSP`, `RSP_VALID` is 1 and `BUSY` is 0 in the response
cycle (R47, R52). -/
def respond (status : Status) (data : BitVec 64) (s : State) : State :=
  { s with rsp := responseWord status data, rspValid := true, busy := false }

/-- The answer of a command that has no stages: its response word is settled at acceptance (R22, R110, R146, R147). -/
def answer (status : Status) (data : BitVec 64) (s : State) : State :=
  respond status data { s with flight := .answer (responseWord status data) }

/-- Taking an error: the response carries the status, its data is 0, and nothing else of the state that persists is
touched (R146, R147, R151, R152, R154). -/
def reject (status : Status) (s : State) : State := answer status 0 s

/-- The response pulse ends: `rsp_valid` is "1 for exactly one cycle per accepted command" (R45, R171). -/
def endPulse (s : State) : State := { s with rspValid := false }

/-! ### Ends of the commands with stages -/

/-- `C`, `D` and `STG` have no specified value once a key load has ended (R14, R15; log entry 4). -/
def releaseKeyRegs (s : State) : State :=
  { s with
    c := Config.freeC s.fresh
    d := Config.freeD s.fresh
    stg := Config.freeSTG s.fresh
    fresh := s.fresh + 1 }

/-- `L`, `R`, `STG` and `DIR` have no specified value once a block command has ended (R13, R15, R124; log entry 4). -/
def releaseBlockRegs (s : State) : State :=
  { s with
    l := Config.freeL s.fresh
    r := Config.freeR s.fresh
    stg := Config.freeSTG s.fresh
    dir := Config.freeDIR s.fresh
    fresh := s.fresh + 1 }

/-- LOADKEY completion: `KVALID <- 1`, `BUSY <- 0`, `respond(OK, 0)` (R108). -/
def keyDone (s : State) : State := respond .ok 0 (setKvalid (releaseKeyRegs s))

/-- The end of a block command: `BUSY <- 0`, `respond(OK, out)` (R123). -/
def blockDone (out : Block) (s : State) : State := respond .ok out (releaseBlockRegs s)

/-! ### Reset -/

/-- The reset event: `KVALID`, `BUSY` and `RSP_VALID` become 0; `KS`, `L`, `R`, `C`, `D`, `STG`, `DIR` and `RSP` are
"unspecified from here on", so each takes a free value (R165, R166; log entry 5). A command in flight is abandoned (R167). -/
def resetCore (s : State) : State :=
  { clearKvalid s with
    busy := false
    rspValid := false
    ks := Config.freeKS s.fresh
    l := Config.freeL s.fresh
    r := Config.freeR s.fresh
    c := Config.freeC s.fresh
    d := Config.freeD s.fresh
    stg := Config.freeSTG s.fresh
    dir := Config.freeDIR s.fresh
    rsp := Config.freeRSP s.fresh
    fresh := s.fresh + 1 }

end Sys2Proof.Machine
end

