-- ==== Sys2Proof/Machine/BlockCommands.lean ====
section
/-!
DEFINITION. The block commands ENCRYPT and DECRYPT (spec `45_block_cipher.md`): one operation with a direction, as R119
asks.
-/

namespace Sys2Proof.Machine

/-- A block command in the given direction: `crypt` under the loaded schedule, or `ERR_NOKEY` with no stage entered
when no schedule is loaded (R117, R118, R146). -/
def blockCommand (dir : Bool) (block : Block) (s : State) : State :=
  if s.kvalid then blockDone (crypt block s.ks dir) { s with flight := .block } else reject .errNoKey s

/-- ENCRYPT: forward subkey order (R117). -/
def execEncrypt (block : Block) (s : State) : Host.Outcome State Fault Refusal := .next (blockCommand false block s)

/-- DECRYPT: reverse subkey order (R118). -/
def execDecrypt (block : Block) (s : State) : Host.Outcome State Fault Refusal := .next (blockCommand true block s)

end Sys2Proof.Machine
end

