-- ==== Sys2Proof/Machine/KeyCommands.lean ====
section
/-!
DEFINITION. The commands that touch the subkey store as a register: LOADKEY and RDSK (spec `44_key_schedule.md`).
-/

namespace Sys2Proof.Machine

/-- LOADKEY: all sixteen entries of `KS` are written together, `KVALID <- 1`, `respond(OK, 0)`, in every state and for
every argument (R103, R104). -/
def execLoadkey (key : Key) (s : State) : Host.Outcome State Fault Refusal :=
  .next (keyDone { s with ks := schedule key, flight := .keyLoad })

/-- RDSK: the subkey zero-extended, or `ERR_NOKEY` when no schedule is loaded (R110). -/
def execRdsk (idx : SubkeyIndex) (s : State) : Host.Outcome State Fault Refusal :=
  if s.kvalid then .next (answer .ok (zext64 (readKS s idx)) s) else .next (reject .errNoKey s)

end Sys2Proof.Machine
end

