-- ==== Sys2Proof/Machine/Reserved.lean ====
section
/-!
DEFINITION. The reserved opcodes 000, 101, 110 and 111: each answers `ERR_ILLOP` with data 0 and changes nothing that
persists, whether or not a schedule is loaded (R54, R147, R149).
-/

namespace Sys2Proof.Machine

/-- Opcode 000 (R147). -/
def execReserved0 (s : State) : Host.Outcome State Fault Refusal := .next (reject .errIllOp s)

/-- Opcode 101 (R147). -/
def execReserved5 (s : State) : Host.Outcome State Fault Refusal := .next (reject .errIllOp s)

/-- Opcode 110 (R147). -/
def execReserved6 (s : State) : Host.Outcome State Fault Refusal := .next (reject .errIllOp s)

/-- Opcode 111 (R147). -/
def execReserved7 (s : State) : Host.Outcome State Fault Refusal := .next (reject .errIllOp s)

end Sys2Proof.Machine
end

