-- ==== Sys2Proof/Machine/Dispatch.lean ====
section
/-!
DEFINITION. `exec`: the meaning of each command, one arm per row of the opcode table (R49, R178).
-/

namespace Sys2Proof.Machine

-- The effect of one accepted command, as one atomic step (R5).
def exec (i : Instr) (s : State) : Host.Outcome State Fault Refusal :=
  match i with
  | .loadkey key => Sys2Proof.Machine.execLoadkey key s
  | .encrypt block => Sys2Proof.Machine.execEncrypt block s
  | .decrypt block => Sys2Proof.Machine.execDecrypt block s
  | .rdsk idx => Sys2Proof.Machine.execRdsk idx s
  | .reserved0 => Sys2Proof.Machine.execReserved0 s
  | .reserved5 => Sys2Proof.Machine.execReserved5 s
  | .reserved6 => Sys2Proof.Machine.execReserved6 s
  | .reserved7 => Sys2Proof.Machine.execReserved7 s

end Sys2Proof.Machine
end

