-- ==== Sys2Proof/Machine/Staged.lean ====
section
/-!
DEFINITION. The staged description of the commands (R106 to R108, R121 to R123) and the core at one rising clock edge
(R45 to R47, R164, R165, R170 to R172): a refinement of `exec` with the same results (R5). How many stages an
implementation does at one edge is open (R124, R180, R181), so it is an argument.
-/

namespace Sys2Proof.Machine

/-! ### The outputs -/

/-- The output ports (R45). `rsp` is "meaningful only while `rsp_valid` = 1", so it is absent otherwise (log entry 9). -/
structure Outputs where
  cmdReady : Bool
  rspValid : Bool
  rsp : Option ResponseWord
  keyValid : Bool
  deriving DecidableEq, Repr

/-- The ports as the registers drive them: `cmd_ready` = not `BUSY`, `key_valid` = `KVALID` (R19, R45). -/
def outputs (s : State) : Outputs where
  cmdReady := !s.busy
  rspValid := s.rspValid
  rsp := if s.rspValid then some s.rsp else none
  keyValid := s.kvalid

/-! ### Stages of a key load -/

/-- LOADKEY stage 0, at acceptance: key selection, `KVALID <- 0`, `BUSY <- 1`, `STG <- 1` (R106). -/
def keyStart (key : Key) (s : State) : State :=
  { clearKvalid s with
    c := (keyHalves key).1
    d := (keyHalves key).2
    busy := true
    stg := 1
    flight := .keyLoad
    rspValid := false }

/-- The index `STG - 1` of the round that a stage does (R107, R122). -/
def roundIndex (s : State) : SubkeyIndex := (s.stg - 1).setWidth 4

/-- The rotation amount of round `i` (R72). -/
def shiftAt (i : SubkeyIndex) : Nat := shifts[i.toNat]'i.isLt

/-- LOADKEY stage `i + 1`: rotate the registers and select a subkey from the values just rotated (R107). -/
def keyRound (s : State) : State :=
  let i := roundIndex s
  let c' := rotl28 s.c (shiftAt i)
  let d' := rotl28 s.d (shiftAt i)
  { writeKS s i (selectSubkey c' d') with c := c', d := d', stg := s.stg + 1 }

/-- One stage of a key load; the completion follows "when stage 16 (`i = 15`) has been done" (R108). -/
def keyStage (s : State) : State := if s.stg = 16 then keyDone (keyRound s) else keyRound s

/-! ### Stages of a block command -/

/-- Block stage 0, at acceptance: initial permutation and split, `DIR <- op[0]`, `BUSY <- 1`, `STG <- 1` (R121). -/
def blockStart (dir : Bool) (block : Block) (s : State) : State :=
  { s with
    l := (initialHalves block).1
    r := (initialHalves block).2
    dir := dir
    busy := true
    stg := 1
    flight := .block
    rspValid := false }

/-- Block stage `n + 1`: one Feistel round with the subkey that `DIR` selects (R122). -/
def blockRound (s : State) : State :=
  let lr := feistelRound (readKS s (sel s.dir (roundIndex s))) (s.l, s.r)
  { s with l := lr.1, r := lr.2, stg := s.stg + 1 }

/-- One stage of a block command; stage 17 is the swap, the final permutation and the response (R123). -/
def blockStage (s : State) : State := if s.stg = 17 then blockDone (finalBlock (s.l, s.r)) s else blockRound s

/-! ### Commands without stages -/

/-- Acceptance of a command that enters no stage: it is busy until its settled response is given (R15, R47, R146). -/
def answerStart (status : Status) (data : BitVec 64) (s : State) : State :=
  { s with busy := true, flight := .answer (responseWord status data), rspValid := false }

/-- The settled response is given (R52). -/
def answerStage (w : ResponseWord) (s : State) : State := { s with rsp := w, rspValid := true, busy := false }

/-! ### Acceptance and progress -/

/-- What the acceptance of a command does at the accepting edge: stage 0 of a command with stages (R46, R106, R121), or
the settling of its response (R110, R146, R147). A response of the cycle that this edge ends is over (R45, R47). -/
def accept (i : Instr) (s : State) : State :=
  match i with
  | .loadkey key => keyStart key s
  | .encrypt block => if s.kvalid then blockStart false block s else answerStart .errNoKey 0 s
  | .decrypt block => if s.kvalid then blockStart true block s else answerStart .errNoKey 0 s
  | .rdsk idx => if s.kvalid then answerStart .ok (zext64 (readKS s idx)) s else answerStart .errNoKey 0 s
  | .reserved0 => answerStart .errIllOp 0 s
  | .reserved5 => answerStart .errIllOp 0 s
  | .reserved6 => answerStart .errIllOp 0 s
  | .reserved7 => answerStart .errIllOp 0 s

/-- The next stage of the command in flight. -/
def stage (s : State) : State :=
  match s.flight with
  | .keyLoad => keyStage s
  | .block => blockStage s
  | .answer w => answerStage w s

/-- Up to `n` stages of the command in flight, stopping at its response. -/
def runStages : Nat → State → State
  | 0, s => s
  | n + 1, s => if s.busy then runStages n (stage s) else s

/-- The core at one rising edge. Reset wins over everything (R164, R165); a busy core accepts nothing and goes on with
its command, whatever is on `cmd` (R46, R47, R172); an idle core takes a valid command (R46); otherwise nothing
happens but the end of a response pulse (R45, R176). -/
def clockEdge (pins : Pins) (n : Nat) (s : State) : State :=
  if pins.rst then resetCore s
  else if s.busy then runStages n s
  else if pins.cmdValid then runStages n (accept (decode pins.cmd) s)
  else endPulse s

end Sys2Proof.Machine
end

