-- ==== Sys2Proof/Machine/Codec.lean ====
section
/-!
DEFINITION. The buffer codec (spec `46_buffer_codec.md`): ENCBUF and DECBUF as functions on byte sequences (R131, R136) and
as the sequencer's expansion into block commands (R132, R137).
-/

namespace Sys2Proof.Machine

/-! ### The operations as functions -/

/-- `padlen(n)`: the smallest positive multiple of 8 that is at least `n` (R130). -/
def padlen (n : Nat) : Nat := if n = 0 then 8 else (n + 7) / 8 * 8

/-- The Padded Buffer: the input bytes and zeros up to the padded length (R131). -/
def padded (bytes : List Byte) : List Byte := bytes ++ List.replicate (padlen bytes.length - bytes.length) 0

/-- A new byte sequence of the given length; every byte of it is written before it is exposed, so its first contents
are never seen (R35, R131; log entry 13). -/
def newBuffer (n : Nat) : List Byte := List.replicate n 0

/-- Block `b` of the output from block `b` of the source: big-endian load, `crypt`, big-endian store (R131, R136). -/
def codecBlock (ks : Schedule) (dir : Bool) (source : List Byte) (out : List Byte) (b : Nat) : List Byte :=
  memWrite out (8 * b) (crypt (memRead source (8 * b)) ks dir)

/-- The block loop of both operations over the given block indices, in the given order (R131, R136, R41). -/
def codecBlocks (ks : Schedule) (dir : Bool) (source : List Byte) (order : List Nat) : List Byte :=
  order.foldl (codecBlock ks dir source) (newBuffer source.length)

/-- The whole output for a source of whole blocks, in ascending order. -/
def codecOutput (ks : Schedule) (dir : Bool) (source : List Byte) : List Byte :=
  codecBlocks ks dir source (List.range (source.length / 8))

/-- The check that ENCBUF makes before it issues a command, in the order schedule, allocation (R142). -/
def encbufCheck (kvalid allocOk : Bool) : Option BufError :=
  if !kvalid then some .invalidParameterNoKey
  else if !allocOk then some .allocationFailure
  else none

/-- The checks that DECBUF makes before it issues a command, in the order length, schedule, allocation (R135, R142). -/
def decbufCheck (bytes : List Byte) (kvalid allocOk : Bool) : Option BufError :=
  if bytes.length = 0 then some .invalidLengthZero
  else if bytes.length % 8 ≠ 0 then some .invalidLengthNotMultipleOf8
  else if !kvalid then some .invalidParameterNoKey
  else if !allocOk then some .allocationFailure
  else none

/-- ENCBUF as a function of the input, of (`KVALID`, `KS`) and of the allocation's outcome (R131). -/
def encbuf (kvalid : Bool) (ks : Schedule) (bytes : List Byte) (allocOk : Bool) : BufResult :=
  match encbufCheck kvalid allocOk with
  | some e => .error e
  | none => .ok (codecOutput ks false (padded bytes)) (padlen bytes.length)

/-- DECBUF as a function of the input, of (`KVALID`, `KS`) and of the allocation's outcome (R136). -/
def decbuf (kvalid : Bool) (ks : Schedule) (bytes : List Byte) (allocOk : Bool) : BufResult :=
  match decbufCheck bytes kvalid allocOk with
  | some e => .error e
  | none => .ok (codecOutput ks true bytes) bytes.length

/-! ### The sequencer -/

/-- The sequencer begins an operation on the given source: no command has been issued yet. -/
def startJob (dir : Bool) (source : List Byte) (s : State) : State :=
  { endPulse s with job := some { dir := dir, source := source, out := newBuffer source.length, next := 0 } }

/-- An operation ends: exactly one result is returned for it, and nothing of it stays in progress (R43, R149, R150). -/
def endJob (res : BufResult) (s : State) : State := { s with job := none, results := s.results ++ [res] }

/-- ENCBUF begins: the checks of R131, then the Padded Buffer. The sequencer reads the port `key_valid` (R141). -/
def startEncbuf (bytes : List Byte) (allocOk : Bool) (s : State) : State :=
  match encbufCheck (outputs s).keyValid allocOk with
  | some e => endJob (.error e) (endPulse s)
  | none => startJob false (padded bytes) s

/-- DECBUF begins: the checks of R136. -/
def startDecbuf (bytes : List Byte) (allocOk : Bool) (s : State) : State :=
  match decbufCheck bytes (outputs s).keyValid allocOk with
  | some e => endJob (.error e) (endPulse s)
  | none => startJob true bytes s

/-- The block command that an operation issues next (R132, R137). -/
def jobCommand (j : Job) : Instr :=
  if j.dir then .decrypt (memRead j.source (8 * j.next)) else .encrypt (memRead j.source (8 * j.next))

/-- The sequencer takes the response to its block command: the data goes to the output buffer, and the operation ends
with the whole output after its last block (R132, R137). Any status but `OK` ends it with `InvalidParameter(NoKey)`
and no output (R132). -/
def takeResponse (j : Job) (s : State) : State :=
  if responseStatus s.rsp = Status.ok.code then
    let out := memWrite j.out (8 * j.next) (responseData s.rsp)
    if 8 * (j.next + 1) < out.length then { s with job := some { j with out := out, next := j.next + 1 } }
    else endJob (.ok out out.length) s
  else endJob (.error .invalidParameterNoKey) s

/-- The sequencer's turn: it issues one block command to the core and takes its response; with no operation in
progress there is nothing to issue. -/
def sequencerTurn (s : State) : Host.Outcome State Fault Refusal :=
  match s.job with
  | none => .next (endPulse s)
  | some j =>
    match exec (jobCommand j) s with
    | .next t => .next (takeResponse j t)
    | .fault e => .fault e
    | .refused e => .refused e

end Sys2Proof.Machine
end

