-- ==== Sys2Proof/Machine/HostAgent.lean ====
section
/-!
DEFINITION. The host's side of a step (R176, R177): which event comes next, when the host waits, and what each event does.
-/

namespace Sys2Proof.Machine

/-- The host waits with this event while the core is busy: it holds `cmd_valid` and `cmd` until the accepting edge
(R46, R172), and samples `key_valid` only while `cmd_ready` = 1 (R175). A reset and a bare clock edge do not wait. -/
def Event.waitsForReady : Event → Bool
  | .command _ => true
  | .encbuf _ _ => true
  | .decbuf _ _ => true
  | .sequencerTurn => true
  | .reset => false
  | .edge _ _ => false

/-- The host waits with this event while a buffer operation is in progress: operations are synchronous, and "the caller does
not start an operation before the previous one has returned" (R47, R177; log entry 13). What another user of the core or
the pins do in between is written with clock edges (R173). -/
def Event.waitsForOperation : Event → Bool
  | .command _ => true
  | .reset => true
  | .encbuf _ _ => true
  | .decbuf _ _ => true
  | .sequencerTurn => false
  | .edge _ _ => false

/-- What an event does once the host waits for nothing. -/
def runEvent (e : Event) (s : State) : Host.Outcome State Fault Refusal :=
  match e with
  | .command w => exec (decode w) s
  | .reset => .next (resetCore s)
  | .encbuf bytes allocOk => .next (startEncbuf bytes allocOk s)
  | .decbuf bytes allocOk => .next (startDecbuf bytes allocOk s)
  | .sequencerTurn => sequencerTurn s
  | .edge pins n => .next (clockEdge pins n s)

/-- A step in which the host does nothing new: a busy core goes on with its command, one stage a step; otherwise the buffer
operation in progress goes on, one block a step; otherwise the core stays as it is but for the end of a response pulse
(R176: the host may "leave the core idle"; "the state does not change"; log entry 11). -/
def quietStep (s : State) : Host.Outcome State Fault Refusal :=
  if s.busy then .next (stage s) else sequencerTurn s

/-- A step with the event `e` next and the events `rest` after it: while the host waits with the event, what is in progress
goes on and the event stays next; otherwise the event is taken. -/
def eventStep (e : Event) (rest : List Event) (s : State) : Host.Outcome State Fault Refusal :=
  if (s.busy && e.waitsForReady) || (s.job.isSome && e.waitsForOperation) then quietStep s
  else runEvent e { s with program := rest }

end Sys2Proof.Machine
end

