-- ==== Sys2Proof/Machine/Step.lean ====
section
/-!
DEFINITION. One step of the machine, and how a command is put where the step takes its next one.
-/

namespace Sys2Proof.Machine

/-- One step: the next event of the host's program, or a quiet step when there is none (R39, R177). -/
def step (s : State) : Host.Outcome State Fault Refusal :=
  match s.program with
  | [] => Sys2Proof.Machine.quietStep s
  | e :: rest => Sys2Proof.Machine.eventStep e rest s

/-- The state in which the very next step takes the command whose bits are `w` (numbered as the opcode table numbers
them, bits at or above `nbits` zero): the host's next event presents it, and neither a command in flight nor a buffer
operation makes the host wait. The rest of the program follows it (log entry 2). -/
def State.withFetchWord (s : State) (nbits w : Nat) : State :=
  { s with
    busy := false
    job := none
    program := .command (BitVec.ofNat 67 (w % 2 ^ nbits)) :: s.program }

end Sys2Proof.Machine
end

