-- ==== Sys2Proof/Machine/Outcome.lean ====
section
/-!
DEFINITION. Runs of the machine, when a program has finished, and its outcome (R177): "the sequence of responses (and results
of pseudo-operations) together with the final persistent state (`KVALID`, and `KS` when `KVALID` = 1)".
-/

namespace Sys2Proof.Machine

/-! ### Runs -/

/-- `n` steps, one after another. -/
def steps : Nat → State → Host.Outcome State Fault Refusal
  | 0, s => .next s
  | n + 1, s =>
    match step s with
    | .next t => steps n t
    | .fault e => .fault e
    | .refused e => .refused e

/-! ### What the host receives -/

/-- One thing that the host receives in a run (R39, R177; log entry 23). -/
inductive Reply where
  /-- The response to a command that the program gives, whole or at clock edges (R47). -/
  | response (w : ResponseWord)
  /-- The response to a block command that the sequencer gives for a buffer operation (R132, R137). -/
  | blockResponse (w : ResponseWord)
  /-- The result of a buffer operation (R145, R150). -/
  | result (r : BufResult)
  deriving DecidableEq, Repr

/-- The result that a reply is, if it is one. -/
def Reply.asResult : Reply → Option BufResult
  | .response _ => none
  | .blockResponse _ => none
  | .result r => some r

/-- The step from this state is a block command of the operation in progress: the core is ready, and the host does nothing at
the pins itself (R132, R137; log entry 13). -/
def issuesBlockCommand (s : State) : Bool :=
  match s.program with
  | .edge _ _ :: _ => false
  | _ => s.job.isSome && !s.busy

/-- What the host receives in a step from `s` to `t`: the response on the port, which a host that samples `rsp` in every cycle
with `rsp_valid` = 1 sees once (R171), and then the result of an operation that the step ended. -/
def stepReplies (s t : State) : List Reply :=
  (outputs t).rsp.toList.map (if issuesBlockCommand s then .blockResponse else .response) ++
    (t.results.drop s.results.length).map .result

/-- What the host receives in `k` steps, in order (R39). -/
def repliesOf : Nat → State → List Reply
  | 0, _ => []
  | k + 1, s =>
    match step s with
    | .next t => stepReplies s t ++ repliesOf k t
    | .fault _ => []
    | .refused _ => []

/-- The response words alone that are on the port in a run of `k` steps, in order (R39, R171). -/
def responsesOf : Nat → State → List ResponseWord
  | 0, _ => []
  | k + 1, s =>
    match step s with
    | .next t => (outputs t).rsp.toList ++ responsesOf k t
    | .fault _ => []
    | .refused _ => []

/-! ### The outcome of a program -/

/-- The program has finished: its last event has been taken, and what it began has been answered (R177; log entry 23). It is
no halt: a finished machine goes on when it is given more to do. -/
def State.finished (s : State) : Bool := s.program.isEmpty && !s.busy && s.job.isNone

/-- The outcome of a program (R177): what the host received, and the final persistent state. -/
structure ProgramOutcome where
  /-- The responses and the results, in order. -/
  replies : List Reply
  /-- `KVALID` at the end. -/
  kvalid : Bool
  /-- `KS` at the end, when `KVALID` is 1. -/
  ks : Option Schedule
  deriving DecidableEq, Repr

/-- The persistent state as an outcome tells it: `KS` is part of it only while `KVALID` is 1 (R11, R177). -/
def State.visibleStore (s : State) : Option Schedule := if s.kvalid then some s.ks else none

/-- The outcome of the program that `s` holds, when `k` steps are enough to finish it. -/
def outcomeOf (k : Nat) (s : State) : Option ProgramOutcome :=
  match steps k s with
  | .next t =>
    if t.finished then some { replies := repliesOf k s, kvalid := t.kvalid, ks := t.visibleStore } else none
  | .fault _ => none
  | .refused _ => none

end Sys2Proof.Machine
end

