-- ==== Sys2Proof/Safety.lean ====
section
/-!
DEFINITION. What claims about runs are stated in, beside the outcome of a program: runs of sequencer turns and of rounds, the
invariant of the machine, and when two states look the same to the host.
-/

namespace Sys2Proof.Machine

/-! ### Runs of one agent -/

/-- The buffer operations' part of a run: `n` turns of the sequencer, one after another. -/
def sequencerTurns : Nat → State → Host.Outcome State Fault Refusal
  | 0, s => .next s
  | n + 1, s =>
    match sequencerTurn s with
    | .next t => sequencerTurns n t
    | .fault e => .fault e
    | .refused e => .refused e

/-- `n` rounds of a key load, without its completion (R107). -/
def keyRounds : Nat → State → State
  | 0, s => s
  | n + 1, s => keyRound (keyRounds n s)

/-- `n` rounds of a block command, without its last stage (R122). -/
def blockRounds : Nat → State → State
  | 0, s => s
  | n + 1, s => blockRound (blockRounds n s)

/-! ### The invariant -/

/-- A response word as R52 allows it: a status that is not 11, and data 0 unless the status is `OK`. -/
def ResponseAllowed (w : ResponseWord) : Prop :=
  responseStatus w ≠ 3 ∧ (responseStatus w ≠ Status.ok.code → responseData w = 0)

/-- `SHIFTS[0] + ... + SHIFTS[n-1]`: how far the halves have turned after `n` rounds (R109). -/
def turnedBy (n : Nat) : Nat := (shifts.toList.take n).sum

/-- A key load between two stages: `KVALID` is 0, `STG` is 1 to 16, `C` and `D` are the key's halves turned by the rounds
done, and the entries of `KS` that those rounds wrote are the key's (R106, R107, R109). -/
def KeyLoadUnderway (s : State) : Prop :=
  s.kvalid = false ∧ 1 ≤ s.stg.toNat ∧ s.stg.toNat ≤ 16 ∧
  ∃ key : Key,
    s.c = (keyHalves key).1.rotateLeft (turnedBy (s.stg.toNat - 1)) ∧
    s.d = (keyHalves key).2.rotateLeft (turnedBy (s.stg.toNat - 1)) ∧
    ∀ i : SubkeyIndex, i.toNat < s.stg.toNat - 1 → subkeyAt s.ks i = subkeyAt (schedule key) i

/-- An operation in progress: whole blocks, as many output bytes as source bytes, and a next block (R131, R136). -/
def JobUnderway (j : Job) : Prop :=
  j.out.length = j.source.length ∧ j.out.length % 8 = 0 ∧ 8 * j.next < j.out.length

/-- The invariant of the machine: it holds at reset and every step keeps it. -/
structure Coherent (s : State) : Prop where
  /-- A busy core gives no response (R45, R47). -/
  busy_silent : s.busy = true → s.rspValid = false
  /-- A response is one that R52 allows. -/
  response_allowed : s.rspValid = true → ResponseAllowed s.rsp
  /-- So is one that is settled and still to be given. -/
  answer_allowed : s.busy = true → ∀ w, s.flight = .answer w → ResponseAllowed w
  /-- `KVALID` is 1 only when `KS` holds a complete schedule (R11). -/
  loaded : s.kvalid = true → ∃ key, s.ks = schedule key
  /-- A key load in flight is at one of its stages (R106, R107). -/
  key_load : s.busy = true → s.flight = .keyLoad → KeyLoadUnderway s
  /-- A block command in flight has a schedule and is at one of its stages (R121, R122). -/
  block_run : s.busy = true → s.flight = .block → s.kvalid = true ∧ 1 ≤ s.stg.toNat ∧ s.stg.toNat ≤ 17
  /-- An operation in progress works on whole blocks. -/
  job_underway : ∀ j, s.job = some j → JobUnderway j
  /-- A successful result has the length it reports, a positive multiple of 8 (R130, R131, R136). -/
  result_length : ∀ bytes n, .ok bytes n ∈ s.results → bytes.length = n ∧ 0 < n ∧ n % 8 = 0

/-! ### States that look the same to the host -/

/-- Two states that differ at most in what the spec calls unspecified: `KS` while `KVALID` is 0, the working registers of
no command in flight, `RSP` outside its cycle (R13 to R15, R22, R24, R166). -/
structure SameToHost (s t : State) : Prop where
  kvalid : s.kvalid = t.kvalid
  busy : s.busy = t.busy
  rspValid : s.rspValid = t.rspValid
  job : s.job = t.job
  results : s.results = t.results
  program : s.program = t.program
  rsp : s.rspValid = true → s.rsp = t.rsp
  ks : s.kvalid = true → s.ks = t.ks
  flight : s.busy = true → s.flight = t.flight
  key_load : s.busy = true → s.flight = .keyLoad → s.stg = t.stg ∧ s.c = t.c ∧ s.d = t.d ∧
    ∀ i : SubkeyIndex, i.toNat < s.stg.toNat - 1 → subkeyAt s.ks i = subkeyAt t.ks i
  block_run : s.busy = true → s.flight = .block →
    s.stg = t.stg ∧ s.l = t.l ∧ s.r = t.r ∧ s.dir = t.dir ∧ s.ks = t.ks

end Sys2Proof.Machine
end

