-- ==== Sys2Proof/Certificates/Slice0/Obligations.lean ====
section
/-!
DEFINITION. The statements about the model, for the provers. Each docstring names the rules of the spec it comes from.
-/

open Sys2Proof Sys2Proof.Machine

/-! ### Encoding -/

/-- Decoding an encoded command gives it back, and encoding a decoded word gives the word with the bits that its opcode
ignores cleared (R48, R49, R51, R55). -/
def Obligations.DecodeAndEncodeAgree : Prop :=
  (∀ i : Instr, i.wf = true ∧ decode (encode i) = i) ∧
  (∀ w : CommandWord, encode (decode w) = clearIgnored w)

/-- Every command word belongs to exactly one row of the opcode table, the row of the command it decodes to (R49, R59). -/
def Obligations.EveryWordHasExactlyOneRow : Prop :=
  ∀ w : CommandWord, ∃ row ∈ opcodeTable,
    row.covers w = true ∧ row.mnemonic = mnemonicOf (decode w) ∧
    ∀ other ∈ opcodeTable, other.covers w = true → other = row

/-- R55: RDSK ignores `arg[63:4]`, a reserved opcode ignores all of `arg`, the three other commands use all of it, and
LOADKEY accepts every argument. -/
def Obligations.IgnoredArgumentBits : Prop :=
  (∀ w w' : CommandWord, opField w = 0b100#3 → opField w' = 0b100#3 → idxField w = idxField w' → decode w = decode w') ∧
  (∀ w w' : CommandWord, opField w ∈ [0b000#3, 0b101#3, 0b110#3, 0b111#3] → opField w' = opField w →
    decode w = decode w') ∧
  (∀ w w' : CommandWord, opField w ∈ [0b001#3, 0b010#3, 0b011#3] → decode w = decode w' → w = w') ∧
  (∀ (key : Key) (s : State), ∃ t, exec (.loadkey key) s = .next t ∧ responseStatus t.rsp = Status.ok.code)

/-- Words written out in the spec decode to the commands they stand for (R57, `95_test_vectors.md`). -/
def Obligations.SpecWordsDecode : Prop :=
  decode 0x1133457799BBCDFF1#67 = .loadkey 0x133457799BBCDFF1#64 ∧
  decode 0x20123456789ABCDEF#67 = .encrypt 0x0123456789ABCDEF#64 ∧
  decode 0x385E813540F0AB405#67 = .decrypt 0x85E813540F0AB405#64 ∧
  decode 0x4DEADBEEF0000001F#67 = .rdsk 15#4 ∧
  decode 0x00000000000000000#67 = .reserved0 ∧
  decode 0x50123456789ABCDEF#67 = .reserved5 ∧
  decode 0x60000000000000000#67 = .reserved6 ∧
  decode 0x7FFFFFFFFFFFFFFFF#67 = .reserved7

/-- The word of a command (R48, R49), as a number of at least 67 bits, is read back as that command, and the line that R57 writes
for it assembles to that word. That a command word is read from such a number is the model's own reading (`decodeTableWord`, log
entry 8, DESIGN CHOICE); the line and its word are R57's. -/
def Obligations.WordsAndLinesStandForCommands : Prop :=
  ∀ (i : Instr) (nbits : Nat), 67 ≤ nbits →
    decodeTableWord nbits (encode i).toNat = some i ∧ assemble (Line.ofInstr i) = some (encode i)

/-! ### Steps -/

/-- A step whose next event presents a command word, with no command in flight and no buffer operation in progress, is
`exec` of the decoded command, with the event taken off the program (R5, R46, R178). That the host's program stands in State
and a step takes its first event is the model's choice (log entry 2), and so is the premise that no buffer operation is in
progress (log entry 13). -/
def Obligations.StepRunsTheDecodedCommand : Prop :=
  ∀ (s : State) (w : CommandWord) (rest : List Event),
    s.program = .command w :: rest → s.busy = false → s.job = none →
    step s = exec (decode w) { s with program := rest }

/-- The model's own interface (log entry 2): with a command's word put where the next step takes its command, the step is
`exec` of that command. -/
def Obligations.StepRunsTheFetchedWord : Prop :=
  ∀ (s : State) (i : Instr) (nbits : Nat), 67 ≤ nbits →
    step (s.withFetchWord nbits (encode i).toNat) = exec i { s with busy := false, job := none }

/-- What a step does when it takes no event. While the core is busy the host waits (R46, R172), and while a buffer operation is in
progress the host starts nothing else (R47): the step does one stage of the command in flight, or, with the core ready, one
turn of the sequencer, and the event stays next; a reset that waits for a buffer operation waits for the command in
flight too. With no event left a step does the same with what is in progress, and in an idle core it only ends a
response pulse (R176: "the state does not change"). That a waiting step is one stage or one turn, and that the program stands in
State, is the model's choice (log entries 2, 11 and 13). -/
def Obligations.HostWaitsForWhatIsInProgress : Prop :=
  (∀ (s : State) (e : Event) (rest : List Event), s.program = e :: rest →
    (s.busy = true → e.waitsForReady = true → step s = .next (stage s) ∧ (stage s).program = e :: rest) ∧
    (s.busy = true → s.job ≠ none → e.waitsForOperation = true →
      step s = .next (stage s) ∧ (stage s).program = e :: rest) ∧
    (s.busy = false → s.job ≠ none → e.waitsForOperation = true →
      step s = sequencerTurn s ∧ ∃ t, sequencerTurn s = .next t ∧ t.program = e :: rest)) ∧
  (∀ s : State, s.program = [] →
    (s.busy = true → step s = .next (stage s) ∧ (stage s).program = []) ∧
    (s.busy = false → s.job ≠ none → step s = sequencerTurn s ∧ ∃ t, sequencerTurn s = .next t ∧ t.program = []) ∧
    (s.busy = false → s.job = none → step s = .next { s with rspValid := false }))

/-- The other events of a program. Reset and the start of a buffer operation are those of R177. The turn of the sequencer as an
event, and the reset that waits until no operation is in progress, are the model's choice (log entry 13), as are the clock edge
with its number of stages (log entry 10) and the program held in State (log entry 2). -/
def Obligations.StepTakesTheOtherEvents : Prop :=
  ∀ (s : State) (rest : List Event),
    (s.program = .reset :: rest → s.job = none → step s = .next (resetCore { s with program := rest })) ∧
    (∀ pins n, s.program = .edge pins n :: rest → step s = .next (clockEdge pins n { s with program := rest })) ∧
    (∀ bytes ok, s.program = .encbuf bytes ok :: rest → s.busy = false → s.job = none →
      step s = .next (startEncbuf bytes ok { s with program := rest })) ∧
    (∀ bytes ok, s.program = .decbuf bytes ok :: rest → s.busy = false → s.job = none →
      step s = .next (startDecbuf bytes ok { s with program := rest })) ∧
    (s.program = .sequencerTurn :: rest → s.busy = false → step s = sequencerTurn { s with program := rest })

/-- R178, the machine as one function: for every state and every command word, the response and the persistent state
after it, in the words of that rule; and reset leaves `KVALID` = 0 and `KS` unspecified, a free value. -/
def Obligations.MachineAsOneFunction : Prop :=
  (∀ s : State, (resetCore s).kvalid = false ∧ (resetCore s).ks = Config.freeKS s.fresh) ∧
  ∀ (s : State) (w : CommandWord), ∃ t, exec (decode w) s = .next t ∧ t.rspValid = true ∧
    (t.kvalid, t.ks, t.rsp) =
      (if w.extractLsb' 64 3 = 0b001#3 then (true, schedule (w.extractLsb' 0 64), 0b00#2 ++ 0#64)
       else if w.extractLsb' 64 3 = 0b010#3 ∨ w.extractLsb' 64 3 = 0b011#3 then
         if s.kvalid = false then (s.kvalid, s.ks, 0b01#2 ++ 0#64)
         else (s.kvalid, s.ks, 0b00#2 ++ crypt (w.extractLsb' 0 64) s.ks (w.getLsbD 64))
       else if w.extractLsb' 64 3 = 0b100#3 then
         if s.kvalid = false then (s.kvalid, s.ks, 0b01#2 ++ 0#64)
         else (s.kvalid, s.ks, 0b00#2 ++ (subkeyAt s.ks (w.extractLsb' 0 4)).setWidth 64)
       else (s.kvalid, s.ks, 0b10#2 ++ 0#64))

/-- The machine never stops (R152, R177, R183): every step from every state gives a next state. Every program finishes: from
every coherent state some number of steps takes every event and answers all that was begun. A finished machine only
ends a response pulse, so the outcome, once there, stays; the results in it are those that the run added; and the outcome of a
program of one command is its response with the persistent state that `exec` gives (R177, R178). That a program stands in State,
what counts as finished and which replies are listed is the model's reading (log entries 2, 11, 13 and 23). -/
def Obligations.EveryStepGoesOnAndProgramsFinish : Prop :=
  (∀ s : State, ∃ t, step s = .next t) ∧
  (∀ s : State, Coherent s → ∃ k t, steps k s = .next t ∧ t.finished = true) ∧
  (∀ s : State, s.finished = true → step s = .next { s with rspValid := false }) ∧
  (∀ (k m : Nat) (s : State) (o : ProgramOutcome), outcomeOf k s = some o → outcomeOf (k + m) s = some o) ∧
  (∀ (k : Nat) (s t : State), steps k s = .next t →
    t.results = s.results ++ (repliesOf k s).filterMap Reply.asResult) ∧
  (∀ (s : State) (w : CommandWord), s.program = [.command w] → s.busy = false → s.job = none →
    ∃ t, exec (decode w) { s with program := [] } = .next t ∧
      outcomeOf 1 s = some { replies := [.response t.rsp], kvalid := t.kvalid, ks := t.visibleStore })

/-! ### The commands, with their frames -/

/-- LOADKEY in every state: `KS`, `KVALID`, the response; and what it leaves alone (R103, R104, R108; the working registers
by R17, log entry 21). -/
def Obligations.LoadkeyFillsTheStore : Prop :=
  ∀ (key : Key) (s : State), ∃ t, exec (.loadkey key) s = .next t ∧
    t.ks = schedule key ∧ t.kvalid = true ∧
    t.rsp = responseWord .ok 0 ∧ t.rspValid = true ∧ t.busy = false ∧
    t.l = s.l ∧ t.r = s.r ∧ t.dir = s.dir ∧
    t.job = s.job ∧ t.results = s.results ∧ t.program = s.program

/-- R103: LOADKEY accepts every argument and always answers `OK`; the schedule of the all-zero key is all zeros, that of the
all-one key all ones, and they are loaded like any other. -/
def Obligations.WeakKeysAreLoadedLikeAnyOther : Prop :=
  (∀ (key : Key) (s : State), ∃ t, exec (.loadkey key) s = .next t ∧ responseStatus t.rsp = 0b00#2 ∧ t.ks = schedule key) ∧
  schedule 0x0000000000000000#64 = Vector.replicate 16 0x000000000000#48 ∧
  schedule 0xFFFFFFFFFFFFFFFF#64 = Vector.replicate 16 0xFFFFFFFFFFFF#48

/-- ENCRYPT with a schedule loaded: the response is `crypt` in forward order; `KS`, `KVALID`, `C` and `D` stay (R117;
`C` and `D` by R17, log entry 21). -/
def Obligations.EncryptAnswersTheCiphertext : Prop :=
  ∀ (block : Block) (s : State), s.kvalid = true → ∃ t, exec (.encrypt block) s = .next t ∧
    t.rsp = responseWord .ok (crypt block s.ks false) ∧ t.rspValid = true ∧ t.busy = false ∧
    t.ks = s.ks ∧ t.kvalid = s.kvalid ∧ t.c = s.c ∧ t.d = s.d ∧
    t.job = s.job ∧ t.results = s.results ∧ t.program = s.program

/-- DECRYPT with a schedule loaded: the response is `crypt` in reverse order; `KS`, `KVALID`, `C` and `D` stay (R118;
`C` and `D` by R17, log entry 21). -/
def Obligations.DecryptAnswersThePlaintext : Prop :=
  ∀ (block : Block) (s : State), s.kvalid = true → ∃ t, exec (.decrypt block) s = .next t ∧
    t.rsp = responseWord .ok (crypt block s.ks true) ∧ t.rspValid = true ∧ t.busy = false ∧
    t.ks = s.ks ∧ t.kvalid = s.kvalid ∧ t.c = s.c ∧ t.d = s.d ∧
    t.job = s.job ∧ t.results = s.results ∧ t.program = s.program

/-- RDSK with a schedule loaded: the response is the subkey with zeros above, and every register but the response's stays
(R110; the working registers by R17, log entry 21). -/
def Obligations.RdskAnswersTheSubkey : Prop :=
  ∀ (idx : SubkeyIndex) (s : State), s.kvalid = true → ∃ t, exec (.rdsk idx) s = .next t ∧
    t.rsp = responseWord .ok ((subkeyAt s.ks idx).setWidth 64) ∧ t.rspValid = true ∧ t.busy = false ∧
    t = { s with rsp := t.rsp, rspValid := true, busy := false, flight := t.flight }

/-- The reserved opcodes answer `ERR_ILLOP` with data 0 whether or not a schedule is loaded, whatever their argument, and
change nothing but the response registers (R54, R147, R149). -/
def Obligations.ReservedOpcodesAnswerIllegal : Prop :=
  (∀ i ∈ [Instr.reserved0, .reserved5, .reserved6, .reserved7], ∀ s : State, ∃ t, exec i s = .next t ∧
    t.rsp = 0x20000000000000000#66 ∧ t.rspValid = true ∧ t.busy = false ∧
    t = { s with rsp := t.rsp, rspValid := true, busy := false, flight := t.flight }) ∧
  (∀ w : CommandWord, opField w ∈ [0b000#3, 0b101#3, 0b110#3, 0b111#3] →
    decode w ∈ [Instr.reserved0, .reserved5, .reserved6, .reserved7])

/-- R146: ENCRYPT, DECRYPT and RDSK with no schedule loaded answer `ERR_NOKEY` with data 0, enter no stage and change nothing
but the response registers; the core is ready again; and no other command and no loaded schedule gives that status. -/
def Obligations.NoScheduleAnswersNoKey : Prop :=
  (∀ (i : Instr) (s : State), s.kvalid = false →
    (∃ block, i = .encrypt block) ∨ (∃ block, i = .decrypt block) ∨ (∃ idx, i = .rdsk idx) →
    accept i s = answerStart .errNoKey 0 s ∧
    ∃ t, exec i s = .next t ∧ t.rsp = 0x10000000000000000#66 ∧ t.rspValid = true ∧ t.busy = false ∧
      t = { s with rsp := t.rsp, rspValid := true, busy := false, flight := t.flight }) ∧
  (∀ (i : Instr) (s t : State), exec i s = .next t → responseStatus t.rsp = 0b01#2 →
    s.kvalid = false ∧ ((∃ block, i = .encrypt block) ∨ (∃ block, i = .decrypt block) ∨ (∃ idx, i = .rdsk idx)))

/-- Every command gives exactly one response, of a status that is never 11, with data 0 unless the status is `OK`; the
two fields of a response word are read back from it (R47, R52). -/
def Obligations.EveryResponseIsAllowed : Prop :=
  (∀ (status : Status) (data : BitVec 64),
    responseStatus (responseWord status data) = status.code ∧ responseData (responseWord status data) = data) ∧
  (∀ (i : Instr) (s t : State), exec i s = .next t →
    t.rspValid = true ∧ t.busy = false ∧ ResponseAllowed t.rsp ∧
    ∃ status data, t.rsp = responseWord status data)

/-- R21: ENCRYPT, DECRYPT, RDSK and the reserved opcodes leave `KS` and `KVALID` unchanged, and a step that changes them is
a reset, a LOADKEY, or a stage of a LOADKEY in flight. -/
def Obligations.OnlyLoadkeyAndResetChangeTheStore : Prop :=
  (∀ (i : Instr) (s t : State), exec i s = .next t → (∀ key, i ≠ .loadkey key) → t.ks = s.ks ∧ t.kvalid = s.kvalid) ∧
  (∀ s t : State, step s = .next t → t.ks ≠ s.ks ∨ t.kvalid ≠ s.kvalid →
    (s.busy = true ∧ s.flight = .keyLoad) ∨
    (∃ rest, s.program = .reset :: rest) ∨
    (∃ key w rest, decode w = .loadkey key ∧ s.program = .command w :: rest) ∨
    (∃ pins n rest, s.program = .edge pins n :: rest ∧
      (pins.rst = true ∨ (pins.cmdValid = true ∧ ∃ key, decode pins.cmd = .loadkey key))))

/-- No command clears `KVALID`: only a reset does, or the first stages of a LOADKEY taken at a clock edge (R11, R106). -/
def Obligations.OnlyResetClearsKvalid : Prop :=
  (∀ (i : Instr) (s t : State), exec i s = .next t → s.kvalid = true → t.kvalid = true) ∧
  (∀ s t : State, step s = .next t → s.kvalid = true → t.kvalid = false →
    (∃ rest, s.program = .reset :: rest) ∨
    (∃ pins n rest, s.program = .edge pins n :: rest ∧
      (pins.rst = true ∨
        (s.busy = false ∧ pins.cmdValid = true ∧ t.busy = true ∧ ∃ key, decode pins.cmd = .loadkey key))))

/-- R22: the response to a command depends on the command and on (`KVALID`, `KS`) and on nothing else, and the same block
twice under one schedule gives the same data. -/
def Obligations.ResponseDependsOnlyOnTheStore : Prop :=
  (∀ (i : Instr) (s s' t t' : State), s.kvalid = s'.kvalid → (s.kvalid = true → s.ks = s'.ks) →
    exec i s = .next t → exec i s' = .next t' →
    t.rsp = t'.rsp ∧ t.kvalid = t'.kvalid ∧ (t.kvalid = true → t.ks = t'.ks)) ∧
  (∀ (block : Block) (s t u : State), exec (.encrypt block) s = .next t → exec (.encrypt block) t = .next u →
    u.rsp = t.rsp)

/-- R37: RDSK, ENCRYPT and DECRYPT may be repeated with the same answer, and loading the same key twice leaves the same
`KS`. -/
def Obligations.RepeatedCommandsAgree : Prop :=
  ∀ (i : Instr) (s t u : State), exec i s = .next t → exec i t = .next u →
    u.rsp = t.rsp ∧ u.ks = t.ks ∧ u.kvalid = t.kvalid

/-! ### The functions of the cipher -/

/-- R80: output bit `i` of `permute` is source bit `T[i]`, positions counted from the most significant bit. -/
def Obligations.PermuteSelectsSourceBits : Prop :=
  (∀ (win wout : Nat) (t : Table win wout) (v : BitVec win) (i : Nat), 1 ≤ i → i ≤ wout →
    msb (permute t v) i = msb v (t.entry i)) ∧
  permute tableE 0x80000000#32 = 0x400000000001#48

/-- Laws of `permute` (R84): zero, all ones, exclusive or, no influence of unselected positions, and one-to-one for the
three permutations. -/
def Obligations.PermuteLaws : Prop :=
  (∀ (win wout : Nat) (t : Table win wout), permute t 0 = 0) ∧
  (∀ (win wout : Nat) (t : Table win wout), permute t (BitVec.allOnes win) = BitVec.allOnes wout) ∧
  (∀ (win wout : Nat) (t : Table win wout) (a b : BitVec win), permute t (a ^^^ b) = permute t a ^^^ permute t b) ∧
  (∀ (win wout : Nat) (t : Table win wout) (a b : BitVec win),
    (∀ p ∈ t.positions, msb a p = msb b p) → permute t a = permute t b) ∧
  Function.Bijective (permute tableIP) ∧ Function.Bijective (permute tableFP) ∧ Function.Bijective (permute tableP)

/-- R67: `FP` is the inverse of `IP`, entry by entry and as functions. -/
def Obligations.FinalPermutationInvertsInitial : Prop :=
  (∀ i, 1 ≤ i → i ≤ 64 → tableFP.entry (tableIP.entry i) = i ∧ tableIP.entry (tableFP.entry i) = i) ∧
  (∀ v : Block, permute tableFP (permute tableIP v) = v) ∧
  (∀ v : Block, permute tableIP (permute tableFP v) = v)

/-- Structural facts of the tables (R68 to R75): what each selects, what `PC1` drops, the sum of the rotation amounts, and
that every row of every S-box holds 0 to 15 once. -/
def Obligations.TablesHaveTheStatedShape : Prop :=
  tableIP.positions.Perm (List.range' 1 64) ∧ tableFP.positions.Perm (List.range' 1 64) ∧
  tableP.positions.Perm (List.range' 1 32) ∧
  (∀ p ∈ List.range' 1 32, tableE.positions.count p =
    if p ∈ [1, 4, 5, 8, 9, 12, 13, 16, 17, 20, 21, 24, 25, 28, 29, 32] then 2 else 1) ∧
  (∀ p ∈ List.range' 1 64, tablePC1.positions.count p = if p % 8 = 0 then 0 else 1) ∧
  (∀ p ∈ List.range' 1 56, tablePC2.positions.count p = if p ∈ [9, 18, 22, 25, 35, 38, 43, 54] then 0 else 1) ∧
  (∀ p ∈ tablePC2.positions.take 24, p ≤ 28) ∧ (∀ p ∈ tablePC2.positions.drop 24, 29 ≤ p) ∧
  shifts.toList.sum = 28 ∧
  (∀ box ∈ [tableS1, tableS2, tableS3, tableS4, tableS5, tableS6, tableS7, tableS8], ∀ row ∈ List.range 4,
    (((box.toList.drop (16 * row)).take 16).map BitVec.toNat).Perm (List.range 16))

/-- R90: nibble `k` of `sbox(x)` is entry `16*row + col` of box `k`, the row made of the outer bits and the column of the
middle bits of group `k`. -/
def Obligations.SboxLooksUpEachGroup : Prop :=
  ∀ (x : BitVec 48) (k : Nat) (box : SBox),
    ([tableS1, tableS2, tableS3, tableS4, tableS5, tableS6, tableS7, tableS8] : List SBox)[k - 1]? = some box → 1 ≤ k →
    ∃ g : BitVec 6, g = x.extractLsb' (48 - 6 * k) 6 ∧
      some ((sbox x).extractLsb' (32 - 4 * k) 4) =
        box[16 * (2 * (g.getLsbD 5).toNat + (g.getLsbD 0).toNat) + (g.extractLsb' 1 4).toNat]?

/-- The directly addressed tables give the same function (R76, R92). -/
def Obligations.DirectTablesAgree : Prop :=
  ∀ x : BitVec 48, sboxDirect x = sbox x

/-- Complementing both operands of the round function leaves its result (R98). -/
def Obligations.RoundFunctionOfComplements : Prop :=
  ∀ (r : Half) (k : Subkey), roundFunction (~~~r) (~~~k) = roundFunction r k

/-- R109: after `n` rounds of a key load the registers hold the key's halves turned by `SHIFTS[0] + ... + SHIFTS[n-1]`, and
after the sixteenth they are the key's halves again; each subkey is selected from the halves turned so far. -/
def Obligations.ScheduleClosedForm : Prop :=
  (∀ (key : Key) (s : State) (n : Nat), n ≤ 16 →
    (keyRounds n (keyStart key s)).c = (keyHalves key).1.rotateLeft (turnedBy n) ∧
    (keyRounds n (keyStart key s)).d = (keyHalves key).2.rotateLeft (turnedBy n)) ∧
  (∀ (key : Key) (s : State), (keyRounds 16 (keyStart key s)).c = (keyHalves key).1 ∧
    (keyRounds 16 (keyStart key s)).d = (keyHalves key).2) ∧
  (∀ (key : Key) (i : SubkeyIndex), subkeyAt (schedule key) i =
    selectSubkey ((keyHalves key).1.rotateLeft (turnedBy (i.toNat + 1)))
      ((keyHalves key).2.rotateLeft (turnedBy (i.toNat + 1))))

/-- R102: parity bits are discarded. Keys that differ only in the positions 8, 16, ..., 64 have the same schedule. -/
def Obligations.ScheduleIgnoresParity : Prop :=
  (∀ key key' : Key, (∀ p, 1 ≤ p → p ≤ 64 → p % 8 ≠ 0 → msb key p = msb key' p) → schedule key = schedule key') ∧
  (∀ key m : Key, m &&& 0xFEFEFEFEFEFEFEFE#64 = 0 → schedule key = schedule (key ^^^ m)) ∧
  schedule 0x133457799BBCDFF1#64 = schedule 0x123456789ABCDEF0#64

/-- The subkeys of the complement of a key are the complements of its subkeys (R127). -/
def Obligations.ScheduleOfComplement : Prop :=
  ∀ (key : Key) (i : SubkeyIndex), subkeyAt (schedule (~~~key)) i = ~~~subkeyAt (schedule key) i

/-- R125: each direction undoes the other, for every block and every schedule, whether or not it came from a key; and as
commands, after any LOADKEY, DECRYPT of what ENCRYPT returned is the block, and conversely. -/
def Obligations.DecryptUndoesEncrypt : Prop :=
  (∀ (block : Block) (ks : Schedule), crypt (crypt block ks false) ks true = block) ∧
  (∀ (block : Block) (ks : Schedule), crypt (crypt block ks true) ks false = block) ∧
  (∀ (key : Key) (block : Block) (s : State), ∃ t u v, exec (.loadkey key) s = .next t ∧
    exec (.encrypt block) t = .next u ∧ exec (.decrypt (responseData u.rsp)) u = .next v ∧
    v.rsp = responseWord .ok block) ∧
  (∀ (key : Key) (block : Block) (s : State), ∃ t u v, exec (.loadkey key) s = .next t ∧
    exec (.decrypt block) t = .next u ∧ exec (.encrypt (responseData u.rsp)) u = .next v ∧
    v.rsp = responseWord .ok block)

/-- The complementation law (R127): complementing key and block complements the result, in both directions. -/
def Obligations.ComplementationLaw : Prop :=
  ∀ (block : Block) (key : Key) (dir : Bool), crypt (~~~block) (schedule (~~~key)) dir = ~~~crypt block (schedule key) dir

/-- R126: when all sixteen subkeys are equal, both directions are one function, ENCRYPT and DECRYPT return the same data,
and ENCRYPT applied twice returns the block. -/
def Obligations.EqualSubkeysMakeOneDirection : Prop :=
  ∀ (ks : Schedule) (k : Subkey), (∀ i : SubkeyIndex, subkeyAt ks i = k) →
    (∀ block : Block, crypt block ks false = crypt block ks true) ∧
    (∀ block : Block, crypt (crypt block ks false) ks false = block) ∧
    (∀ (block : Block) (s t u : State), s.ks = ks → s.kvalid = true →
      exec (.encrypt block) s = .next t → exec (.decrypt block) s = .next u → t.rsp = u.rsp) ∧
    (∀ (block : Block) (s : State), s.ks = ks → s.kvalid = true → ∃ t u, exec (.encrypt block) s = .next t ∧
      exec (.encrypt (responseData t.rsp)) t = .next u ∧ u.rsp = responseWord .ok block)

/-- The known-answer test of the source, both ways (R128), and its first subkey (R113). -/
def Obligations.KnownAnswer : Prop :=
  crypt 0x0123456789ABCDEF#64 (schedule 0x133457799BBCDFF1#64) false = 0x85E813540F0AB405#64 ∧
  crypt 0x85E813540F0AB405#64 (schedule 0x133457799BBCDFF1#64) true = 0x0123456789ABCDEF#64 ∧
  subkeyAt (schedule 0x133457799BBCDFF1#64) 0 = 0x1B02EFFC7072#48

/-! ### Stages and clock edges -/

/-- R106 to R108: what each stage of a key load does. Stage 0 selects the halves and clears `KVALID`; stage `i + 1` rotates the
registers, selects a subkey from the values just rotated and writes it to `KS[i]`, and leaves the rest alone; with
stage 16 the load completes: `KVALID` is 1, `BUSY` 0 and the response `OK` with data 0. The third clause says nothing of `C`,
`D` and `STG`, which R107 writes at stage 16 too: the completion of R108 follows in the same step of the model and releases them
to free values (R14, R15, log entry 4). The field `flight` is the model's own (log entry 6). -/
def Obligations.StagesOfAKeyLoad : Prop :=
  (∀ (key : Key) (s : State), accept (.loadkey key) s = { s with
    c := (permute tablePC1 key).extractLsb' 28 28, d := (permute tablePC1 key).extractLsb' 0 28,
    kvalid := false, busy := true, stg := 1, flight := .keyLoad, rspValid := false }) ∧
  (∀ (s : State) (i : SubkeyIndex), s.busy = true → s.flight = .keyLoad → s.stg.toNat = i.toNat + 1 → i ≠ 15 → ∃ t,
    runStages 1 s = t ∧ t.c = rotl28 s.c (shifts[i.toNat]'i.isLt) ∧ t.d = rotl28 s.d (shifts[i.toNat]'i.isLt) ∧
    subkeyAt t.ks i = permute tablePC2 (t.c ++ t.d) ∧ (∀ j : SubkeyIndex, j ≠ i → subkeyAt t.ks j = subkeyAt s.ks j) ∧
    t.stg = s.stg + 1 ∧ t = { s with c := t.c, d := t.d, ks := t.ks, stg := t.stg }) ∧
  (∀ s : State, s.busy = true → s.flight = .keyLoad → s.stg = 16 → ∃ t, runStages 1 s = t ∧
    subkeyAt t.ks 15 = permute tablePC2 (rotl28 s.c 1 ++ rotl28 s.d 1) ∧
    (∀ j : SubkeyIndex, j ≠ 15 → subkeyAt t.ks j = subkeyAt s.ks j) ∧
    t.kvalid = true ∧ t.busy = false ∧ t.rsp = responseWord .ok 0 ∧ t.rspValid = true ∧
    t.l = s.l ∧ t.r = s.r ∧ t.dir = s.dir)

/-- R121, R122: what each stage of a block command does. Stage 0 permutes and splits the block and latches `DIR` from bit 64 of
the word, or no stage is entered when no schedule is loaded; stage `n + 1` is one round with the subkey that `DIR` selects. The
field `flight` is the model's own (log entry 6). -/
def Obligations.StagesOfABlockCommand : Prop :=
  (∀ (w : CommandWord) (s : State), w.extractLsb' 65 2 = 0b01#2 → s.kvalid = true → accept (decode w) s = { s with
    l := (permute tableIP (argField w)).extractLsb' 32 32, r := (permute tableIP (argField w)).extractLsb' 0 32,
    dir := w.getLsbD 64, busy := true, stg := 1, flight := .block, rspValid := false }) ∧
  (∀ (w : CommandWord) (s : State), w.extractLsb' 65 2 = 0b01#2 → s.kvalid = false →
    ∃ t, exec (decode w) s = .next t ∧ t.rsp = 0x10000000000000000#66 ∧
      t = { s with rsp := t.rsp, rspValid := true, busy := false, flight := t.flight }) ∧
  (∀ (s : State) (n : SubkeyIndex), s.busy = true → s.flight = .block → s.stg.toNat = n.toNat + 1 →
    runStages 1 s = { s with
      l := s.r, r := s.l ^^^ roundFunction s.r (subkeyAt s.ks (if s.dir then 15 - n else n)), stg := s.stg + 1 })

/-- The stages compute the command (R5, R108, R123): acceptance followed by all the stages gives exactly the state of `exec`, for
every command and every state. That both descriptions are held and agree in every field is the model's: the two levels are log
entry 1, the free values of the registers released at the end log entry 4, and the field `flight` with the commands that have
no stages log entry 6. -/
def Obligations.StagesComputeTheCommand : Prop :=
  ∀ (i : Instr) (s : State), exec i s = .next (runStages 17 (accept i s))

/-- Between its first and its last stage a block command holds the halves of the rounds done, and changes neither `KS` nor
`KVALID` (R121 to R123). -/
def Obligations.BlockStagesHoldTheRounds : Prop :=
  ∀ (dir : Bool) (block : Block) (s : State) (n : Nat), n ≤ 16 →
    ((blockRounds n (blockStart dir block s)).l, (blockRounds n (blockStart dir block s)).r) =
      cryptRounds s.ks dir n (initialHalves block) ∧
    (blockRounds n (blockStart dir block s)).stg = BitVec.ofNat 5 (n + 1) ∧
    (blockRounds n (blockStart dir block s)).dir = dir ∧
    (blockRounds n (blockStart dir block s)).ks = s.ks ∧
    (blockRounds n (blockStart dir block s)).kvalid = s.kvalid

/-- A busy core accepts nothing and is not disturbed by its pins: an edge without reset only does stages, and a sequence of
edges does as many as they are given, however they are spread (R46, R47, R124, R172, R180). That an edge carries the number of its
stages is the model's choice (log entry 10). -/
def Obligations.BusyCoreOnlyDoesStages : Prop :=
  (∀ (pins : Pins) (n : Nat) (s : State), pins.rst = false → s.busy = true → clockEdge pins n s = runStages n s) ∧
  (∀ (m n : Nat) (s : State), runStages (m + n) s = runStages n (runStages m s)) ∧
  (∀ (edges : List (Pins × Nat)) (last : Pins × Nat) (s : State),
    (∀ e ∈ edges ++ [last], e.1.rst = false) → (runStages (edges.map Prod.snd).sum s).busy = true →
    (edges ++ [last]).foldl (fun t e => clockEdge e.1 e.2 t) s =
      runStages ((edges ++ [last]).map Prod.snd).sum s)

/-- Every accepted command is answered: from every coherent state with a command in flight, at most 17 stages later there is a
response and the core is ready; and at every point before that there is none (R47, R183). Stages stand here for the cycles that
the rules leave open (log entry 10), and the one stage of a command without stages is the model's (log entry 6). -/
def Obligations.AcceptedCommandIsAnswered : Prop :=
  ∀ s : State, Coherent s → s.busy = true →
    (∃ n, n ≤ 17 ∧ (runStages n s).busy = false ∧ (runStages n s).rspValid = true) ∧
    (∀ n, (runStages n s).busy = true → (runStages n s).rspValid = false)

/-- An idle core: a clock edge with a valid command takes it, and one without changes nothing but the end of a response
pulse (R45, R46, R176). That the accepting edge may also do stages is the model's choice (log entry 10), and that the register
`RSP` keeps its word after its cycle, where R45 leaves `rsp` unspecified, is its reading (log entry 9). -/
def Obligations.IdleCoreTakesOrKeeps : Prop :=
  ∀ (pins : Pins) (n : Nat) (s : State), pins.rst = false → s.busy = false →
    (pins.cmdValid = true → clockEdge pins n s = runStages n (accept (decode pins.cmd) s)) ∧
    (pins.cmdValid = false → clockEdge pins n s = { s with rspValid := false })

/-- Reset wins over everything at its edge, abandons the command in flight, and leaves `KVALID`, `BUSY` and `RSP_VALID` 0; the
host's own data is untouched (R164, R165, R167; that reset does not reach the sequencer is the model's reading, log
entry 13). -/
def Obligations.ResetWins : Prop :=
  ∀ (pins : Pins) (n : Nat) (s : State), pins.rst = true →
    clockEdge pins n s = resetCore s ∧
    (resetCore s).kvalid = false ∧ (resetCore s).busy = false ∧ (resetCore s).rspValid = false ∧
    (outputs (resetCore s)).cmdReady = true ∧ (outputs (resetCore s)).keyValid = false ∧
    (resetCore s).job = s.job ∧ (resetCore s).results = s.results ∧ (resetCore s).program = s.program

/-- Right after a reset every command that needs the schedule answers `ERR_NOKEY`, whatever `KS` then holds, and the machine
after reset is such a state (R24, R166, R169, R174). That State.reset holds an empty program is the model's choice (log entry 2). -/
def Obligations.NothingIsReadAfterReset : Prop :=
  (State.reset.kvalid = false ∧ State.reset.busy = false ∧ State.reset.rspValid = false ∧ State.reset.program = []) ∧
  (∀ (s : State) (i : Instr),
    (∃ block, i = .encrypt block) ∨ (∃ block, i = .decrypt block) ∨ (∃ idx, i = .rdsk idx) →
    ∃ t, exec i (resetCore s) = .next t ∧ t.rsp = responseWord .errNoKey 0 ∧ t.kvalid = false)

/-! ### Invariant and indistinguishability -/

/-- Every step keeps the invariant. -/
def Obligations.EveryStepKeepsCoherence : Prop :=
  ∀ s t : State, Coherent s → step s = .next t → Coherent t

/-- The machine after reset meets the invariant. -/
def Obligations.ResetIsCoherent : Prop :=
  Coherent State.reset

/-- Nothing unspecified is ever seen: two states that look the same to the host stay so at every step and show the same
outputs, so the responses of a run, all that the host receives, and the outcome of a program depend on nothing
unspecified (R22, R166, R177, law 16 of `95_test_vectors.md`). That the sequencer's operation and results and the program are host
data in State is the model's choice (log entries 2 and 13), and so is the list of replies (log entry 23). -/
def Obligations.NothingUnspecifiedIsSeen : Prop :=
  (∀ s t s' : State, SameToHost s t → step s = .next s' → ∃ t', step t = .next t' ∧ SameToHost s' t') ∧
  (∀ s t : State, SameToHost s t → outputs s = outputs t) ∧
  (∀ (k : Nat) (s t : State), SameToHost s t →
    responsesOf k s = responsesOf k t ∧ repliesOf k s = repliesOf k t ∧ outcomeOf k s = outcomeOf k t)

/-- Resets from any two states look the same to the host, if the host's own data is the same (R165, R166). -/
def Obligations.ResetsLookTheSame : Prop :=
  ∀ s t : State, s.job = t.job → s.results = t.results → s.program = t.program →
    SameToHost (resetCore s) (resetCore t)

/-! ### The buffer codec -/

/-- R130: `padlen(n)` is the smallest positive multiple of 8 that is at least `n`. -/
def Obligations.PadlenIsTheSmallestMultiple : Prop :=
  (∀ n : Nat, 0 < padlen n ∧ padlen n % 8 = 0 ∧ n ≤ padlen n ∧ padlen n ≤ n + 8) ∧
  (∀ n m : Nat, 0 < m → m % 8 = 0 → n ≤ m → padlen n ≤ m) ∧
  (∀ n : Nat, padlen n = n ↔ 0 < n ∧ n % 8 = 0) ∧
  padlen 0 = 8 ∧ (∀ n : Nat, 0 < n → padlen n = (n + 7) / 8 * 8)

/-- `MemWrite` and `MemRead` are inverse, in big-endian order, and a write changes no other byte (R31, R32). -/
def Obligations.MemReadAndWriteAreInverse : Prop :=
  (∀ (buf : List Byte) (a : Nat) (v : Block), a + 8 ≤ buf.length →
    memRead (memWrite buf a v) a = v ∧ (memWrite buf a v).length = buf.length ∧
    (∀ j, j < 8 → byteAt (memWrite buf a v) (a + j) = v.extractLsb' (56 - 8 * j) 8) ∧
    (∀ j, j < a ∨ a + 8 ≤ j → byteAt (memWrite buf a v) j = byteAt buf j)) ∧
  (∀ (buf : List Byte) (a : Nat), a + 8 ≤ buf.length → memWrite buf a (memRead buf a) = buf)

/-- R143: output block `b` is `crypt` of input block `b` under the schedule and depends on nothing else; the output has the
source's length. -/
def Obligations.BlocksAreIndependent : Prop :=
  ∀ (ks : Schedule) (dir : Bool) (source : List Byte), source.length % 8 = 0 →
    (codecOutput ks dir source).length = source.length ∧
    ∀ b, 8 * b < source.length →
      memRead (codecOutput ks dir source) (8 * b) = crypt (memRead source (8 * b)) ks dir

/-- The order in which the blocks of a buffer are processed does not matter (R41). -/
def Obligations.BlockOrderIsIrrelevant : Prop :=
  ∀ (ks : Schedule) (dir : Bool) (source : List Byte) (order : List Nat), source.length % 8 = 0 →
    order.Perm (List.range (source.length / 8)) → codecBlocks ks dir source order = codecOutput ks dir source

/-- R139: DECBUF of ENCBUF gives the input followed by the padding zeros, so the input itself when its length is a
positive multiple of 8, and eight zero bytes for the empty input; and ENCBUF of DECBUF gives the input, for whole blocks. -/
def Obligations.BufferRoundTrips : Prop :=
  (∀ (ks : Schedule) (bytes : List Byte), ∃ out, encbuf true ks bytes true = .ok out (padlen bytes.length) ∧
    decbuf true ks out true =
      .ok (bytes ++ List.replicate (padlen bytes.length - bytes.length) 0) (padlen bytes.length)) ∧
  (∀ (ks : Schedule) (bytes : List Byte), 0 < bytes.length → bytes.length % 8 = 0 →
    ∃ out, encbuf true ks bytes true = .ok out bytes.length ∧ decbuf true ks out true = .ok bytes bytes.length) ∧
  (∀ ks : Schedule, ∃ out, encbuf true ks [] true = .ok out 8 ∧
    decbuf true ks out true = .ok [0, 0, 0, 0, 0, 0, 0, 0] 8) ∧
  (∀ (ks : Schedule) (bytes : List Byte), 0 < bytes.length → bytes.length % 8 = 0 →
    ∃ out, decbuf true ks bytes true = .ok out bytes.length ∧ encbuf true ks out true = .ok bytes bytes.length)

/-- R142: the checks come in order, DECBUF length, schedule, allocation, ENCBUF schedule, allocation, and the first that fails
is reported; when none fails the operation succeeds. -/
def Obligations.FirstFailingCheckIsReported : Prop :=
  ∀ (kvalid ok : Bool) (ks : Schedule) (bytes : List Byte),
    (bytes.length = 0 → decbuf kvalid ks bytes ok = .error .invalidLengthZero) ∧
    (bytes.length ≠ 0 → bytes.length % 8 ≠ 0 → decbuf kvalid ks bytes ok = .error .invalidLengthNotMultipleOf8) ∧
    (bytes.length ≠ 0 → bytes.length % 8 = 0 → kvalid = false → decbuf kvalid ks bytes ok = .error .invalidParameterNoKey) ∧
    (bytes.length ≠ 0 → bytes.length % 8 = 0 → kvalid = true → ok = false →
      decbuf kvalid ks bytes ok = .error .allocationFailure) ∧
    (bytes.length ≠ 0 → bytes.length % 8 = 0 → kvalid = true → ok = true →
      ∃ out, decbuf kvalid ks bytes ok = .ok out bytes.length) ∧
    (kvalid = false → encbuf kvalid ks bytes ok = .error .invalidParameterNoKey) ∧
    (kvalid = true → ok = false → encbuf kvalid ks bytes ok = .error .allocationFailure) ∧
    (kvalid = true → ok = true → ∃ out, encbuf kvalid ks bytes ok = .ok out (padlen bytes.length))

/-- The sequencer computes the operation (R132, R137): begun with a schedule loaded, and its turns taken one after another, it
ends with the result of the function after exactly one block command for each block, exposes nothing before, and leaves
`KS`, `KVALID`, `C`, `D` and the host's program as they were. That a turn is an event of its own and that results are kept in a list
is the model's choice (log entry 13); that block commands leave `C` and `D` is its reading of R14 and R17 (log entry 21). -/
def Obligations.SequencerComputesTheOperation : Prop :=
  (∀ (bytes : List Byte) (s : State), s.kvalid = true → ∃ t,
    sequencerTurns (padlen bytes.length / 8) (startEncbuf bytes true s) = .next t ∧
    t.results = s.results ++ [encbuf true s.ks bytes true] ∧ t.job = none ∧
    t.ks = s.ks ∧ t.kvalid = s.kvalid ∧ t.c = s.c ∧ t.d = s.d ∧ t.program = s.program ∧
    ∀ n, n < padlen bytes.length / 8 → ∃ u, sequencerTurns n (startEncbuf bytes true s) = .next u ∧
      u.results = s.results) ∧
  (∀ (bytes : List Byte) (s : State), s.kvalid = true → 0 < bytes.length → bytes.length % 8 = 0 → ∃ t,
    sequencerTurns (bytes.length / 8) (startDecbuf bytes true s) = .next t ∧
    t.results = s.results ++ [decbuf true s.ks bytes true] ∧ t.job = none ∧
    t.ks = s.ks ∧ t.kvalid = s.kvalid ∧ t.c = s.c ∧ t.d = s.d ∧ t.program = s.program ∧
    ∀ n, n < bytes.length / 8 → ∃ u, sequencerTurns n (startDecbuf bytes true s) = .next u ∧
      u.results = s.results)

/-- A buffer operation of a program ends before the program's next command (R39, R47, R177): its start and one step for each
block give the result of the function under the schedule loaded at its start, and the next step runs the command. As a whole
program, its outcome is the responses to its block commands (R132, R137), its result, and the persistent state as it was. That
each block is one step is the model's choice (log entry 13), and that the outcome lists the responses to block commands too is its
reading of R177 (log entry 23). -/
def Obligations.OperationEndsBeforeTheNextCommand : Prop :=
  (∀ (bytes : List Byte) (w : CommandWord) (rest : List Event) (s : State),
    s.program = .encbuf bytes true :: .command w :: rest → s.busy = false → s.job = none → s.kvalid = true →
    ∃ t, steps (padlen bytes.length / 8 + 1) s = .next t ∧ t.results = s.results ++ [encbuf true s.ks bytes true] ∧
      t.ks = s.ks ∧ t.kvalid = true ∧ step t = exec (decode w) { t with program := rest }) ∧
  (∀ (bytes : List Byte) (w : CommandWord) (rest : List Event) (s : State),
    s.program = .decbuf bytes true :: .command w :: rest → s.busy = false → s.job = none → s.kvalid = true →
    0 < bytes.length → bytes.length % 8 = 0 →
    ∃ t, steps (bytes.length / 8 + 1) s = .next t ∧ t.results = s.results ++ [decbuf true s.ks bytes true] ∧
      t.ks = s.ks ∧ t.kvalid = true ∧ step t = exec (decode w) { t with program := rest }) ∧
  (∀ (bytes : List Byte) (s : State),
    s.program = [.encbuf bytes true] → s.busy = false → s.job = none → s.kvalid = true →
    outcomeOf (padlen bytes.length / 8 + 1) s = some {
      replies := (List.range (padlen bytes.length / 8)).map (fun b =>
          .blockResponse (responseWord .ok (crypt (memRead (padded bytes) (8 * b)) s.ks false))) ++
        [.result (encbuf true s.ks bytes true)]
      kvalid := true
      ks := some s.ks }) ∧
  (∀ (bytes : List Byte) (s : State),
    s.program = [.decbuf bytes true] → s.busy = false → s.job = none → s.kvalid = true →
    0 < bytes.length → bytes.length % 8 = 0 →
    outcomeOf (bytes.length / 8 + 1) s = some {
      replies := (List.range (bytes.length / 8)).map (fun b =>
          .blockResponse (responseWord .ok (crypt (memRead bytes (8 * b)) s.ks true))) ++
        [.result (decbuf true s.ks bytes true)]
      kvalid := true
      ks := some s.ks })

/-- A turn of the sequencer uses the schedule in force at that turn, whoever loaded it (R173): a turn before the last block stores
the block and goes on, the turn for the last block ends the operation with the whole output as its result (R132, R137); without
a schedule the whole operation ends with `InvalidParameter(NoKey)` and no output (R132). Turns and the list of results are the
model's choice (log entry 13). -/
def Obligations.TurnUsesTheScheduleInForce : Prop :=
  (∀ (j : Job) (s : State), s.job = some j → s.kvalid = true → 8 * (j.next + 1) < j.out.length → ∃ t,
    sequencerTurn s = .next t ∧
    t.job = some { j with
      out := memWrite j.out (8 * j.next) (crypt (memRead j.source (8 * j.next)) s.ks j.dir)
      next := j.next + 1 } ∧
    t.ks = s.ks ∧ t.kvalid = s.kvalid ∧ t.results = s.results ∧ t.program = s.program) ∧
  (∀ (j : Job) (s : State), s.job = some j → s.kvalid = true → j.out.length ≤ 8 * (j.next + 1) → ∃ t,
    sequencerTurn s = .next t ∧ t.job = none ∧
    t.results = s.results ++
      [.ok (memWrite j.out (8 * j.next) (crypt (memRead j.source (8 * j.next)) s.ks j.dir)) j.out.length] ∧
    t.ks = s.ks ∧ t.kvalid = s.kvalid ∧ t.program = s.program) ∧
  (∀ (j : Job) (s : State), s.job = some j → s.kvalid = false → ∃ t, sequencerTurn s = .next t ∧
    t.job = none ∧ t.results = s.results ++ [.error .invalidParameterNoKey] ∧
    t.ks = s.ks ∧ t.kvalid = s.kvalid ∧ t.program = s.program)

/-- A buffer operation refused by a check issues no command and leaves every register of the core as it was, but for the end
of a response pulse; the error is its one result (R36, R43, R140, R149, R150). That the results are kept in a list, and that the
start of an operation ends a response pulse, is the model's choice (log entry 13). -/
def Obligations.RefusedBufferOperationChangesNothing : Prop :=
  (∀ (bytes : List Byte) (ok : Bool) (s : State) (e : BufError), encbuf s.kvalid s.ks bytes ok = .error e →
    startEncbuf bytes ok s = { s with rspValid := false, job := none, results := s.results ++ [.error e] }) ∧
  (∀ (bytes : List Byte) (ok : Bool) (s : State) (e : BufError), decbuf s.kvalid s.ks bytes ok = .error e →
    startDecbuf bytes ok s = { s with rspValid := false, job := none, results := s.results ++ [.error e] })
end

