-- ==== Sys2Proof/Laws/Permute.lean ====
section
/-!
SUPPORT. What `msb` and `permute` do, bit by bit: the lemmas that later proofs cite instead of unfolding the loop.
-/

namespace Sys2Proof.Machine

/-- Two values are equal when they agree at every position from 1 to their width. -/
theorem eq_of_msb_eq {w : Nat} {a b : BitVec w} (h : ∀ p, 1 ≤ p → p ≤ w → msb a p = msb b p) : a = b := by
  apply BitVec.eq_of_getLsbD_eq
  intro i hi
  have := h (w - i) (by omega) (by omega)
  simpa [msb, show w - (w - i) = i by omega] using this

/-- The loop of R80, one entry at a time: bit `j` of the result comes from the entry counted from the end. -/
theorem getLsbD_shiftIns {win wout : Nat} (v : BitVec win) (ps : List Nat) (acc : BitVec wout) (j : Nat)
    (hj : j < wout) :
    (ps.foldl (shiftIn v) acc).getLsbD j =
      if j < ps.length then msb v (ps.getD (ps.length - 1 - j) 0) else acc.getLsbD (j - ps.length) := by
  induction ps using List.reverseRecOn generalizing j with
  | nil => simp
  | append_singleton ps p ih =>
    rw [List.foldl_append]
    simp only [List.foldl_cons, List.foldl_nil, shiftIn, BitVec.getLsbD_or, BitVec.getLsbD_shiftLeft, BitVec.getLsbD_setWidth]
    rcases j with _ | j
    · simp [hj]
    · rw [show j + 1 - 1 = j by omega, ih j (by omega)]
      have hz : (BitVec.ofBool (msb v p)).getLsbD (j + 1) = false := BitVec.getLsbD_of_ge _ _ (by omega)
      simp only [hj, hz, List.length_append, List.length_singleton]
      by_cases hlt : j < ps.length
      · rw [if_pos hlt, if_pos (by omega), show ps.length + 1 - 1 - (j + 1) = ps.length - 1 - j by omega,
          List.getD_append _ _ _ _ (by omega)]
        simp
      · simp [hlt]

/-- Bit `j` of `permute`, counted from 0 at the least significant end: `out[W_out - i] = v[W_in - T[i]]` (R80). -/
theorem getLsbD_permute {win wout : Nat} (t : Table win wout) (v : BitVec win) (j : Nat) (hj : j < wout) :
    (permute t v).getLsbD j = msb v (t.entry (wout - j)) := by
  rw [permute, getLsbD_shiftIns _ _ _ _ hj, t.length_eq, if_pos hj, Table.entry,
    show wout - 1 - j = wout - j - 1 by omega]

/-- An entry of a table is one of its positions. -/
theorem Table.entry_mem {win wout : Nat} (t : Table win wout) (i : Nat) (h1 : 1 ≤ i) (h2 : i ≤ wout) :
    t.entry i ∈ t.positions := by
  have hlt : i - 1 < t.positions.length := by rw [t.length_eq]; omega
  rw [Table.entry, List.getD_eq_getElem _ _ hlt]
  exact List.getElem_mem hlt

/-- An entry of a table is a position of its source (R65). -/
theorem Table.entry_range {win wout : Nat} (t : Table win wout) (i : Nat) (h1 : 1 ≤ i) (h2 : i ≤ wout) :
    1 ≤ t.entry i ∧ t.entry i ≤ win := t.in_range _ (t.entry_mem i h1 h2)

/-- `permute` sees only the selected positions. -/
theorem permute_congr {win wout : Nat} (t : Table win wout) {a b : BitVec win}
    (h : ∀ p ∈ t.positions, msb a p = msb b p) : permute t a = permute t b := by
  apply BitVec.eq_of_getLsbD_eq
  intro j hj
  rw [getLsbD_permute t a j hj, getLsbD_permute t b j hj]
  exact h _ (t.entry_mem _ (by omega) (by omega))

/-- The bit at a position of a complement, for a position of the value. -/
theorem msb_not {w : Nat} (v : BitVec w) (p : Nat) (h1 : 1 ≤ p) (h2 : p ≤ w) : msb (~~~v) p = !msb v p := by
  simp [msb, show w - p < w by omega]

/-- `permute` maps complements to complements (R84, R98, R127). -/
theorem permute_not {win wout : Nat} (t : Table win wout) (v : BitVec win) : permute t (~~~v) = ~~~permute t v := by
  apply BitVec.eq_of_getLsbD_eq
  intro j hj
  obtain ⟨h1, h2⟩ := t.entry_range (wout - j) (by omega) (by omega)
  rw [getLsbD_permute t _ j hj, msb_not _ _ h1 h2, BitVec.getLsbD_not, getLsbD_permute t _ j hj]
  simp [hj]

end Sys2Proof.Machine
end

