-- ==== Sys2Proof/Laws/Cipher.lean ====
section
/-!
SUPPORT. Lemmas about the cipher's functions: rotations of a 28-bit half, the rounds of the key schedule, the Feistel
round and its inverse.
-/

namespace Sys2Proof.Machine

/-! ### Rotations -/

/-- A bit of a rotation comes from the position that the rotation brings there. -/
theorem getLsbD_rotateLeft_mod {w : Nat} (x : BitVec w) (n i : Nat) (hi : i < w) :
    (x.rotateLeft n).getLsbD i = x.getLsbD ((i + (w - n % w)) % w) := by
  have hn : n % w < w := Nat.mod_lt _ (by omega)
  rw [BitVec.getLsbD_rotateLeft]
  by_cases h : i < n % w
  · rw [Nat.mod_eq_of_lt (by omega : i + (w - n % w) < w)]
    simp [h, Nat.add_comm]
  · rw [show i + (w - n % w) = i - n % w + w by omega, Nat.add_mod_right,
      Nat.mod_eq_of_lt (by omega : i - n % w < w)]
    simp [h, hi]

/-- Rotating by `m` and then by `n` is rotating by their sum. -/
theorem rotateLeft_rotateLeft {w : Nat} (x : BitVec w) (m n : Nat) :
    (x.rotateLeft m).rotateLeft n = x.rotateLeft (m + n) := by
  apply BitVec.eq_of_getLsbD_eq
  intro i hi
  have hw : 0 < w := by omega
  have hm := Nat.mod_lt m hw
  have hn := Nat.mod_lt n hw
  rw [getLsbD_rotateLeft_mod _ _ _ hi, getLsbD_rotateLeft_mod _ _ _ (Nat.mod_lt _ hw),
    getLsbD_rotateLeft_mod _ _ _ hi, Nat.add_mod m n]
  congr 1
  rw [Nat.mod_add_mod]
  by_cases h : m % w + n % w < w
  · rw [Nat.mod_eq_of_lt h, show i + (w - n % w) + (w - m % w) = i + (w - (m % w + n % w)) + w by omega,
      Nat.add_mod_right]
  · rw [show m % w + n % w = m % w + n % w - w + w by omega, Nat.add_mod_right,
      Nat.mod_eq_of_lt (by omega : m % w + n % w - w < w),
      show i + (w - n % w) + (w - m % w) = i + (w - (m % w + n % w - w)) by omega]

/-- `rotl28` is the rotation of a 28-bit value (R111). -/
theorem rotl28_eq_rotateLeft (x : KeyHalf) (n : Nat) (h : n < 28) : rotl28 x n = x.rotateLeft n := by
  rw [BitVec.rotateLeft_def, Nat.mod_eq_of_lt h]
  rfl

/-- Every rotation amount is 1 or 2 (R72). -/
theorem shift_lt (n : Nat) (h : n ∈ shifts.toList) : n < 28 := by
  have hall : ∀ n ∈ shifts.toList, n < 28 := by decide
  exact hall n h

/-! ### The key schedule -/

/-- The subkey of round `i` is selected from the halves turned by the amounts up to and including that round. -/
theorem scheduleRounds_getElem (ns : List Nat) (hns : ∀ n ∈ ns, n < 28) (c d : KeyHalf) (i : Nat)
    (hi : i < (scheduleRounds ns c d).length) :
    (scheduleRounds ns c d)[i] =
      selectSubkey (c.rotateLeft (ns.take (i + 1)).sum) (d.rotateLeft (ns.take (i + 1)).sum) := by
  induction ns generalizing c d i with
  | nil => simp [scheduleRounds] at hi
  | cons n ns ih =>
    have hn : n < 28 := hns n (by simp)
    rcases i with _ | i
    · simp [scheduleRounds, rotl28_eq_rotateLeft _ _ hn]
    · simp only [scheduleRounds, List.getElem_cons_succ, List.take_succ_cons, List.sum_cons]
      rw [ih (fun m hm => hns m (by simp [hm])), rotl28_eq_rotateLeft _ _ hn, rotl28_eq_rotateLeft _ _ hn,
        rotateLeft_rotateLeft, rotateLeft_rotateLeft]

/-- An entry of a schedule as an entry of the list of its rounds. -/
theorem subkeyAt_schedule (key : Key) (i : SubkeyIndex) : subkeyAt (schedule key) i =
    (scheduleRounds shifts.toList (keyHalves key).1 (keyHalves key).2)[i.toNat]'(by
      rw [scheduleRounds_length]; simpa using i.isLt) := rfl

/-- Two schedules are equal when their sixteen entries are. -/
theorem schedule_ext {a b : Schedule} (h : ∀ i : SubkeyIndex, subkeyAt a i = subkeyAt b i) : a = b := by
  apply Vector.ext
  intro i hi
  have := h (BitVec.ofNat 4 i)
  simpa [subkeyAt, Nat.mod_eq_of_lt hi] using this

/-! ### The Feistel rounds -/

/-- The halves exchanged. -/
def swapHalves (lr : Half × Half) : Half × Half := (lr.2, lr.1)

/-- One round undoes the same round with the halves exchanged, whatever the round function is (R125). -/
theorem feistelRound_swap_feistelRound (k : Subkey) (lr : Half × Half) :
    feistelRound k (swapHalves (feistelRound k lr)) = swapHalves lr := by
  simp [feistelRound, swapHalves]

/-- The subkey of round `n` in one direction is that of round `15 - n` in the other (R116). -/
theorem sel_not (dir : Bool) (n : Nat) (h : n < 16) :
    sel (!dir) (BitVec.ofNat 4 n) = sel dir (BitVec.ofNat 4 (15 - n)) := by
  have hall : ∀ (dir : Bool) (n : Fin 16), sel (!dir) (BitVec.ofNat 4 n) = sel dir (BitVec.ofNat 4 (15 - n)) := by decide
  exact hall dir ⟨n, h⟩

/-- Going back `n` rounds in the other direction leaves the exchanged halves of the rounds that are left. -/
theorem cryptRounds_back (ks : Schedule) (dir : Bool) (lr : Half × Half) (n : Nat) (h : n ≤ 16) :
    cryptRounds ks (!dir) n (swapHalves (cryptRounds ks dir 16 lr)) = swapHalves (cryptRounds ks dir (16 - n) lr) := by
  induction n with
  | zero => rfl
  | succ n ih =>
    rw [cryptRounds, ih (by omega), show 16 - n = (15 - n) + 1 by omega, cryptRounds, sel_not dir n (by omega),
      feistelRound_swap_feistelRound, show 16 - (n + 1) = 15 - n by omega]

/-- The rounds depend on the schedule only through its entries. -/
theorem cryptRounds_congr {ks ks' : Schedule} {dir dir' : Bool}
    (h : ∀ n : Nat, n < 16 →
      subkeyAt ks (sel dir (BitVec.ofNat 4 n)) = subkeyAt ks' (sel dir' (BitVec.ofNat 4 n)))
    (n : Nat) (hn : n ≤ 16) (lr : Half × Half) : cryptRounds ks dir n lr = cryptRounds ks' dir' n lr := by
  induction n with
  | zero => rfl
  | succ n ih => rw [cryptRounds, cryptRounds, ih (by omega), h n (by omega)]

end Sys2Proof.Machine
end

