-- ==== Sys2Proof/Laws/Decode.lean ====
section
/-!
SUPPORT. The fields of command words: what the slices of a concatenation are, and that a word is made of its two fields.
-/

namespace Sys2Proof

/-- The high part of a concatenation. -/
theorem extractLsb'_append_high {n m : Nat} (x : BitVec n) (y : BitVec m) : (x ++ y).extractLsb' m n = x := by
  apply BitVec.eq_of_getLsbD_eq
  intro i hi
  simp [BitVec.getLsbD_append, hi]

/-- The low part of a concatenation. -/
theorem extractLsb'_append_low {n m : Nat} (x : BitVec n) (y : BitVec m) : (x ++ y).extractLsb' 0 m = y := by
  apply BitVec.eq_of_getLsbD_eq
  intro i hi
  simp [BitVec.getLsbD_append, hi]

/-- A value is its high part and its low part. -/
theorem append_extractLsb' {n m : Nat} (w : BitVec (n + m)) : w.extractLsb' m n ++ w.extractLsb' 0 m = w := by
  apply BitVec.eq_of_getLsbD_eq
  intro i hi
  rw [BitVec.getLsbD_append]
  by_cases h : i < m
  · simp [h]
  · simp [h, show i - m < n by omega, show m + (i - m) = i by omega]

/-- A bit of a command word is a bit of its argument or of its opcode. -/
theorem getLsbD_commandWord (op : BitVec 3) (arg : BitVec 64) (i : Nat) :
    (commandWord op arg).getLsbD i = if i < 64 then arg.getLsbD i else op.getLsbD (i - 64) :=
  BitVec.getLsbD_append (x := op) (y := arg) (i := i)

@[simp] theorem opField_commandWord (op : BitVec 3) (arg : BitVec 64) : opField (commandWord op arg) = op :=
  extractLsb'_append_high op arg

@[simp] theorem argField_commandWord (op : BitVec 3) (arg : BitVec 64) : argField (commandWord op arg) = arg :=
  extractLsb'_append_low op arg

@[simp] theorem idxField_commandWord (op : BitVec 3) (arg : BitVec 64) :
    idxField (commandWord op arg) = arg.extractLsb' 0 4 := by
  rw [idxField, argField_commandWord]

/-- A command word is its opcode and its argument (R48). -/
theorem commandWord_fields (w : CommandWord) : commandWord (opField w) (argField w) = w :=
  append_extractLsb' (n := 3) (m := 64) w

/-- Every command word is made of an opcode and an argument. -/
theorem exists_commandWord (w : CommandWord) : ∃ op arg, w = commandWord op arg :=
  ⟨_, _, (commandWord_fields w).symm⟩

/-- Masking a word masks its two fields. -/
theorem commandWord_and (op op' : BitVec 3) (arg arg' : BitVec 64) :
    commandWord op arg &&& commandWord op' arg' = commandWord (op &&& op') (arg &&& arg') := by
  apply BitVec.eq_of_getLsbD_eq
  intro i _
  rw [BitVec.getLsbD_and]
  simp only [getLsbD_commandWord]
  split <;> simp

/-- The two fields of a word determine it. -/
theorem commandWord_inj {op op' : BitVec 3} {arg arg' : BitVec 64} :
    commandWord op arg = commandWord op' arg' ↔ op = op' ∧ arg = arg' := by
  constructor
  · intro h
    exact ⟨by simpa using congrArg opField h, by simpa using congrArg argField h⟩
  · rintro ⟨rfl, rfl⟩; rfl

/-- The opcode is below 8, each value named. -/
theorem opcode_cases (op : BitVec 3) : op = 0b000#3 ∨ op = 0b001#3 ∨ op = 0b010#3 ∨ op = 0b011#3 ∨
    op = 0b100#3 ∨ op = 0b101#3 ∨ op = 0b110#3 ∨ op = 0b111#3 := by
  revert op; decide

/-- What each opcode decodes to: the opcode map of R49. -/
theorem decode_commandWord (op : BitVec 3) (arg : BitVec 64) : decode (commandWord op arg) =
    match op.toFin with
    | 0 => .reserved0
    | 1 => .loadkey arg
    | 2 => .encrypt arg
    | 3 => .decrypt arg
    | 4 => .rdsk (arg.extractLsb' 0 4)
    | 5 => .reserved5
    | 6 => .reserved6
    | 7 => .reserved7 := by
  rcases opcode_cases op with h | h | h | h | h | h | h | h <;> subst h <;>
    simp only [decode, opField_commandWord, argField_commandWord, idxField_commandWord] <;> rfl

/-- The number of a word that fits is read as the word. -/
theorem decodeTableWord_of_lt {nbits : Nat} (w : CommandWord) (h : 67 ≤ nbits) :
    decodeTableWord nbits w.toNat = some (decode w) := by
  have hlt : w.toNat < 2 ^ nbits := Nat.lt_of_lt_of_le w.isLt (Nat.pow_le_pow_right (by decide) h)
  simp [decodeTableWord, decodeNat, Nat.mod_eq_of_lt hlt, w.isLt]

end Sys2Proof
end

