-- ==== Sys2Proof/Laws/Codec.lean ====
section
/-!
SUPPORT. The bytes of buffers: reading a byte after a write, and the blocks of a buffer.
-/

namespace Sys2Proof.Machine

/-! ### Writing bytes one after another -/

/-- A run of byte stores from an offset, the loop of R32. -/
theorem byteAt_setBytes (f : Nat → Byte) (a n : Nat) (buf : List Byte) (h : a + n ≤ buf.length) (j : Nat) :
    ((List.range n).foldl (fun b k => b.set (a + k) (f k)) buf).length = buf.length ∧
    byteAt ((List.range n).foldl (fun b k => b.set (a + k) (f k)) buf) j =
      if a ≤ j ∧ j < a + n then f (j - a) else byteAt buf j := by
  induction n with
  | zero => simp
  | succ n ih =>
    obtain ⟨ih1, ih2⟩ := ih (by omega)
    rw [List.range_succ, List.foldl_append]
    refine ⟨by simpa using ih1, ?_⟩
    simp only [List.foldl_cons, List.foldl_nil, byteAt, List.getD_eq_getElem?_getD, List.getElem?_set, ih1] at ih2 ⊢
    by_cases hj : a + n = j
    · subst hj
      simp [show a + n < buf.length by omega]
    · rw [if_neg hj, ih2]
      by_cases hi : a ≤ j ∧ j < a + n
      · rw [if_pos hi, if_pos (by omega)]
      · rw [if_neg hi, if_neg (by omega)]

/-- A block store keeps the length. -/
@[simp] theorem memWrite_length (buf : List Byte) (a : Nat) (v : Block) : (memWrite buf a v).length = buf.length := by
  simp [memWrite, List.range_succ]

/-- A byte after a block store. -/
theorem byteAt_memWrite (buf : List Byte) (a : Nat) (v : Block) (h : a + 8 ≤ buf.length) (j : Nat) :
    byteAt (memWrite buf a v) j = if a ≤ j ∧ j < a + 8 then blockByte v (j - a) else byteAt buf j :=
  (byteAt_setBytes (blockByte v) a 8 buf h j).2

/-- Two buffers of one length are equal when their bytes are. -/
theorem buffer_ext {a b : List Byte} (hl : a.length = b.length) (h : ∀ j, j < a.length → byteAt a j = byteAt b j) :
    a = b := by
  apply List.ext_getElem hl
  intro j h1 h2
  have := h j h1
  rwa [byteAt, byteAt, List.getD_eq_getElem _ _ h1, List.getD_eq_getElem _ _ h2] at this

/-! ### Blocks and their bytes -/

/-- Concatenating the bytes of a block in order gives the block. -/
theorem block_of_blockBytes (v : Block) :
    (blockByte v 0 ++ blockByte v 1 ++ blockByte v 2 ++ blockByte v 3 ++
      blockByte v 4 ++ blockByte v 5 ++ blockByte v 6 ++ blockByte v 7 : BitVec 64) = v := by
  apply BitVec.eq_of_getLsbD_eq
  intro i hi
  simp only [BitVec.getLsbD_append, blockByte, BitVec.getLsbD_extractLsb']
  by_cases h1 : i < 8
  · simp [h1]
  by_cases h2 : i - 8 < 8
  · simp [h1, h2, show 8 + (i - 8) = i by omega]
  by_cases h3 : i - 8 - 8 < 8
  · simp [h1, h2, h3, show 16 + (i - 8 - 8) = i by omega]
  by_cases h4 : i - 8 - 8 - 8 < 8
  · simp [h1, h2, h3, h4, show 24 + (i - 8 - 8 - 8) = i by omega]
  by_cases h5 : i - 8 - 8 - 8 - 8 < 8
  · simp [h1, h2, h3, h4, h5, show 32 + (i - 8 - 8 - 8 - 8) = i by omega]
  by_cases h6 : i - 8 - 8 - 8 - 8 - 8 < 8
  · simp [h1, h2, h3, h4, h5, h6, show 40 + (i - 8 - 8 - 8 - 8 - 8) = i by omega]
  by_cases h7 : i - 8 - 8 - 8 - 8 - 8 - 8 < 8
  · simp [h1, h2, h3, h4, h5, h6, h7, show 48 + (i - 8 - 8 - 8 - 8 - 8 - 8) = i by omega]
  · simp [h1, h2, h3, h4, h5, h6, h7, show i - 8 - 8 - 8 - 8 - 8 - 8 - 8 < 8 by omega,
      show 56 + (i - 8 - 8 - 8 - 8 - 8 - 8 - 8) = i by omega]

/-- Byte `j` of the block read at an offset is the byte there. -/
theorem blockByte_memRead (buf : List Byte) (a j : Nat) (h : j < 8) : blockByte (memRead buf a) j = byteAt buf (a + j) := by
  have hcases : j = 0 ∨ j = 1 ∨ j = 2 ∨ j = 3 ∨ j = 4 ∨ j = 5 ∨ j = 6 ∨ j = 7 := by omega
  apply BitVec.eq_of_getLsbD_eq
  intro i hi
  rcases hcases with rfl | rfl | rfl | rfl | rfl | rfl | rfl | rfl <;>
    simp only [blockByte, memRead, BitVec.getLsbD_extractLsb', BitVec.getLsbD_append, hi] <;>
    simp <;> grind

/-- A block is read from eight bytes only. -/
theorem memRead_congr {buf buf' : List Byte} {a a' : Nat} (h : ∀ j, j < 8 → byteAt buf (a + j) = byteAt buf' (a' + j)) :
    memRead buf a = memRead buf' a' := by
  have h0 := h 0 (by decide)
  simp only [Nat.add_zero] at h0
  simp only [memRead, h0, h 1 (by decide), h 2 (by decide), h 3 (by decide), h 4 (by decide), h 5 (by decide),
    h 6 (by decide), h 7 (by decide)]

end Sys2Proof.Machine
end

