-- ==== Sys2Proof/Laws/State.lean ====
section
/-!
SUPPORT. What each update of the state does to each field of it: one lemma per field per update, so that no later proof
unfolds a record update.
-/

namespace Sys2Proof.Machine

/-! ### `respond`: respond(status, data) (R52) -/

@[simp] theorem respond_ks (status : Status) (data : BitVec 64) (s : State) : (respond status data s).ks = s.ks := rfl
@[simp] theorem respond_kvalid (status : Status) (data : BitVec 64) (s : State) :
    (respond status data s).kvalid = s.kvalid := rfl
@[simp] theorem respond_l (status : Status) (data : BitVec 64) (s : State) : (respond status data s).l = s.l := rfl
@[simp] theorem respond_r (status : Status) (data : BitVec 64) (s : State) : (respond status data s).r = s.r := rfl
@[simp] theorem respond_c (status : Status) (data : BitVec 64) (s : State) : (respond status data s).c = s.c := rfl
@[simp] theorem respond_d (status : Status) (data : BitVec 64) (s : State) : (respond status data s).d = s.d := rfl
@[simp] theorem respond_stg (status : Status) (data : BitVec 64) (s : State) :
    (respond status data s).stg = s.stg := rfl
@[simp] theorem respond_dir (status : Status) (data : BitVec 64) (s : State) :
    (respond status data s).dir = s.dir := rfl
@[simp] theorem respond_busy (status : Status) (data : BitVec 64) (s : State) :
    (respond status data s).busy = false := rfl
@[simp] theorem respond_rsp (status : Status) (data : BitVec 64) (s : State) :
    (respond status data s).rsp = responseWord status data := rfl
@[simp] theorem respond_rspValid (status : Status) (data : BitVec 64) (s : State) :
    (respond status data s).rspValid = true := rfl
@[simp] theorem respond_flight (status : Status) (data : BitVec 64) (s : State) :
    (respond status data s).flight = s.flight := rfl
@[simp] theorem respond_fresh (status : Status) (data : BitVec 64) (s : State) :
    (respond status data s).fresh = s.fresh := rfl
@[simp] theorem respond_job (status : Status) (data : BitVec 64) (s : State) :
    (respond status data s).job = s.job := rfl
@[simp] theorem respond_results (status : Status) (data : BitVec 64) (s : State) :
    (respond status data s).results = s.results := rfl
@[simp] theorem respond_program (status : Status) (data : BitVec 64) (s : State) :
    (respond status data s).program = s.program := rfl

/-! ### `answer`: the answer of a command without stages (R22) -/

@[simp] theorem answer_ks (status : Status) (data : BitVec 64) (s : State) : (answer status data s).ks = s.ks := rfl
@[simp] theorem answer_kvalid (status : Status) (data : BitVec 64) (s : State) :
    (answer status data s).kvalid = s.kvalid := rfl
@[simp] theorem answer_l (status : Status) (data : BitVec 64) (s : State) : (answer status data s).l = s.l := rfl
@[simp] theorem answer_r (status : Status) (data : BitVec 64) (s : State) : (answer status data s).r = s.r := rfl
@[simp] theorem answer_c (status : Status) (data : BitVec 64) (s : State) : (answer status data s).c = s.c := rfl
@[simp] theorem answer_d (status : Status) (data : BitVec 64) (s : State) : (answer status data s).d = s.d := rfl
@[simp] theorem answer_stg (status : Status) (data : BitVec 64) (s : State) :
    (answer status data s).stg = s.stg := rfl
@[simp] theorem answer_dir (status : Status) (data : BitVec 64) (s : State) :
    (answer status data s).dir = s.dir := rfl
@[simp] theorem answer_busy (status : Status) (data : BitVec 64) (s : State) :
    (answer status data s).busy = false := rfl
@[simp] theorem answer_rsp (status : Status) (data : BitVec 64) (s : State) :
    (answer status data s).rsp = responseWord status data := rfl
@[simp] theorem answer_rspValid (status : Status) (data : BitVec 64) (s : State) :
    (answer status data s).rspValid = true := rfl
@[simp] theorem answer_flight (status : Status) (data : BitVec 64) (s : State) :
    (answer status data s).flight = .answer (responseWord status data) := rfl
@[simp] theorem answer_fresh (status : Status) (data : BitVec 64) (s : State) :
    (answer status data s).fresh = s.fresh := rfl
@[simp] theorem answer_job (status : Status) (data : BitVec 64) (s : State) :
    (answer status data s).job = s.job := rfl
@[simp] theorem answer_results (status : Status) (data : BitVec 64) (s : State) :
    (answer status data s).results = s.results := rfl
@[simp] theorem answer_program (status : Status) (data : BitVec 64) (s : State) :
    (answer status data s).program = s.program := rfl

/-! ### `reject`: the error response (R146, R147) -/

@[simp] theorem reject_ks (status : Status) (s : State) : (reject status s).ks = s.ks := rfl
@[simp] theorem reject_kvalid (status : Status) (s : State) : (reject status s).kvalid = s.kvalid := rfl
@[simp] theorem reject_l (status : Status) (s : State) : (reject status s).l = s.l := rfl
@[simp] theorem reject_r (status : Status) (s : State) : (reject status s).r = s.r := rfl
@[simp] theorem reject_c (status : Status) (s : State) : (reject status s).c = s.c := rfl
@[simp] theorem reject_d (status : Status) (s : State) : (reject status s).d = s.d := rfl
@[simp] theorem reject_stg (status : Status) (s : State) : (reject status s).stg = s.stg := rfl
@[simp] theorem reject_dir (status : Status) (s : State) : (reject status s).dir = s.dir := rfl
@[simp] theorem reject_busy (status : Status) (s : State) : (reject status s).busy = false := rfl
@[simp] theorem reject_rsp (status : Status) (s : State) : (reject status s).rsp = responseWord status 0 := rfl
@[simp] theorem reject_rspValid (status : Status) (s : State) : (reject status s).rspValid = true := rfl
@[simp] theorem reject_flight (status : Status) (s : State) :
    (reject status s).flight = .answer (responseWord status 0) := rfl
@[simp] theorem reject_fresh (status : Status) (s : State) : (reject status s).fresh = s.fresh := rfl
@[simp] theorem reject_job (status : Status) (s : State) : (reject status s).job = s.job := rfl
@[simp] theorem reject_results (status : Status) (s : State) : (reject status s).results = s.results := rfl
@[simp] theorem reject_program (status : Status) (s : State) : (reject status s).program = s.program := rfl

/-! ### `endPulse`: the end of a response pulse (R45) -/

@[simp] theorem endPulse_ks (s : State) : (endPulse s).ks = s.ks := rfl
@[simp] theorem endPulse_kvalid (s : State) : (endPulse s).kvalid = s.kvalid := rfl
@[simp] theorem endPulse_l (s : State) : (endPulse s).l = s.l := rfl
@[simp] theorem endPulse_r (s : State) : (endPulse s).r = s.r := rfl
@[simp] theorem endPulse_c (s : State) : (endPulse s).c = s.c := rfl
@[simp] theorem endPulse_d (s : State) : (endPulse s).d = s.d := rfl
@[simp] theorem endPulse_stg (s : State) : (endPulse s).stg = s.stg := rfl
@[simp] theorem endPulse_dir (s : State) : (endPulse s).dir = s.dir := rfl
@[simp] theorem endPulse_busy (s : State) : (endPulse s).busy = s.busy := rfl
@[simp] theorem endPulse_rsp (s : State) : (endPulse s).rsp = s.rsp := rfl
@[simp] theorem endPulse_rspValid (s : State) : (endPulse s).rspValid = false := rfl
@[simp] theorem endPulse_flight (s : State) : (endPulse s).flight = s.flight := rfl
@[simp] theorem endPulse_fresh (s : State) : (endPulse s).fresh = s.fresh := rfl
@[simp] theorem endPulse_job (s : State) : (endPulse s).job = s.job := rfl
@[simp] theorem endPulse_results (s : State) : (endPulse s).results = s.results := rfl
@[simp] theorem endPulse_program (s : State) : (endPulse s).program = s.program := rfl

/-! ### `setKvalid`: `KVALID <- 1` (R104) -/

@[simp] theorem setKvalid_ks (s : State) : (setKvalid s).ks = s.ks := rfl
@[simp] theorem setKvalid_kvalid (s : State) : (setKvalid s).kvalid = true := rfl
@[simp] theorem setKvalid_l (s : State) : (setKvalid s).l = s.l := rfl
@[simp] theorem setKvalid_r (s : State) : (setKvalid s).r = s.r := rfl
@[simp] theorem setKvalid_c (s : State) : (setKvalid s).c = s.c := rfl
@[simp] theorem setKvalid_d (s : State) : (setKvalid s).d = s.d := rfl
@[simp] theorem setKvalid_stg (s : State) : (setKvalid s).stg = s.stg := rfl
@[simp] theorem setKvalid_dir (s : State) : (setKvalid s).dir = s.dir := rfl
@[simp] theorem setKvalid_busy (s : State) : (setKvalid s).busy = s.busy := rfl
@[simp] theorem setKvalid_rsp (s : State) : (setKvalid s).rsp = s.rsp := rfl
@[simp] theorem setKvalid_rspValid (s : State) : (setKvalid s).rspValid = s.rspValid := rfl
@[simp] theorem setKvalid_flight (s : State) : (setKvalid s).flight = s.flight := rfl
@[simp] theorem setKvalid_fresh (s : State) : (setKvalid s).fresh = s.fresh := rfl
@[simp] theorem setKvalid_job (s : State) : (setKvalid s).job = s.job := rfl
@[simp] theorem setKvalid_results (s : State) : (setKvalid s).results = s.results := rfl
@[simp] theorem setKvalid_program (s : State) : (setKvalid s).program = s.program := rfl

/-! ### `clearKvalid`: `KVALID <- 0` (R106, R165) -/

@[simp] theorem clearKvalid_ks (s : State) : (clearKvalid s).ks = s.ks := rfl
@[simp] theorem clearKvalid_kvalid (s : State) : (clearKvalid s).kvalid = false := rfl
@[simp] theorem clearKvalid_l (s : State) : (clearKvalid s).l = s.l := rfl
@[simp] theorem clearKvalid_r (s : State) : (clearKvalid s).r = s.r := rfl
@[simp] theorem clearKvalid_c (s : State) : (clearKvalid s).c = s.c := rfl
@[simp] theorem clearKvalid_d (s : State) : (clearKvalid s).d = s.d := rfl
@[simp] theorem clearKvalid_stg (s : State) : (clearKvalid s).stg = s.stg := rfl
@[simp] theorem clearKvalid_dir (s : State) : (clearKvalid s).dir = s.dir := rfl
@[simp] theorem clearKvalid_busy (s : State) : (clearKvalid s).busy = s.busy := rfl
@[simp] theorem clearKvalid_rsp (s : State) : (clearKvalid s).rsp = s.rsp := rfl
@[simp] theorem clearKvalid_rspValid (s : State) : (clearKvalid s).rspValid = s.rspValid := rfl
@[simp] theorem clearKvalid_flight (s : State) : (clearKvalid s).flight = s.flight := rfl
@[simp] theorem clearKvalid_fresh (s : State) : (clearKvalid s).fresh = s.fresh := rfl
@[simp] theorem clearKvalid_job (s : State) : (clearKvalid s).job = s.job := rfl
@[simp] theorem clearKvalid_results (s : State) : (clearKvalid s).results = s.results := rfl
@[simp] theorem clearKvalid_program (s : State) : (clearKvalid s).program = s.program := rfl

/-! ### `releaseKeyRegs`: the registers of a key load that has ended (R14, R15) -/

@[simp] theorem releaseKeyRegs_ks (s : State) : (releaseKeyRegs s).ks = s.ks := rfl
@[simp] theorem releaseKeyRegs_kvalid (s : State) : (releaseKeyRegs s).kvalid = s.kvalid := rfl
@[simp] theorem releaseKeyRegs_l (s : State) : (releaseKeyRegs s).l = s.l := rfl
@[simp] theorem releaseKeyRegs_r (s : State) : (releaseKeyRegs s).r = s.r := rfl
@[simp] theorem releaseKeyRegs_c (s : State) : (releaseKeyRegs s).c = Config.freeC s.fresh := rfl
@[simp] theorem releaseKeyRegs_d (s : State) : (releaseKeyRegs s).d = Config.freeD s.fresh := rfl
@[simp] theorem releaseKeyRegs_stg (s : State) : (releaseKeyRegs s).stg = Config.freeSTG s.fresh := rfl
@[simp] theorem releaseKeyRegs_dir (s : State) : (releaseKeyRegs s).dir = s.dir := rfl
@[simp] theorem releaseKeyRegs_busy (s : State) : (releaseKeyRegs s).busy = s.busy := rfl
@[simp] theorem releaseKeyRegs_rsp (s : State) : (releaseKeyRegs s).rsp = s.rsp := rfl
@[simp] theorem releaseKeyRegs_rspValid (s : State) : (releaseKeyRegs s).rspValid = s.rspValid := rfl
@[simp] theorem releaseKeyRegs_flight (s : State) : (releaseKeyRegs s).flight = s.flight := rfl
@[simp] theorem releaseKeyRegs_fresh (s : State) : (releaseKeyRegs s).fresh = s.fresh + 1 := rfl
@[simp] theorem releaseKeyRegs_job (s : State) : (releaseKeyRegs s).job = s.job := rfl
@[simp] theorem releaseKeyRegs_results (s : State) : (releaseKeyRegs s).results = s.results := rfl
@[simp] theorem releaseKeyRegs_program (s : State) : (releaseKeyRegs s).program = s.program := rfl

/-! ### `releaseBlockRegs`: the registers of a block command that has ended (R13, R15) -/

@[simp] theorem releaseBlockRegs_ks (s : State) : (releaseBlockRegs s).ks = s.ks := rfl
@[simp] theorem releaseBlockRegs_kvalid (s : State) : (releaseBlockRegs s).kvalid = s.kvalid := rfl
@[simp] theorem releaseBlockRegs_l (s : State) : (releaseBlockRegs s).l = Config.freeL s.fresh := rfl
@[simp] theorem releaseBlockRegs_r (s : State) : (releaseBlockRegs s).r = Config.freeR s.fresh := rfl
@[simp] theorem releaseBlockRegs_c (s : State) : (releaseBlockRegs s).c = s.c := rfl
@[simp] theorem releaseBlockRegs_d (s : State) : (releaseBlockRegs s).d = s.d := rfl
@[simp] theorem releaseBlockRegs_stg (s : State) : (releaseBlockRegs s).stg = Config.freeSTG s.fresh := rfl
@[simp] theorem releaseBlockRegs_dir (s : State) : (releaseBlockRegs s).dir = Config.freeDIR s.fresh := rfl
@[simp] theorem releaseBlockRegs_busy (s : State) : (releaseBlockRegs s).busy = s.busy := rfl
@[simp] theorem releaseBlockRegs_rsp (s : State) : (releaseBlockRegs s).rsp = s.rsp := rfl
@[simp] theorem releaseBlockRegs_rspValid (s : State) : (releaseBlockRegs s).rspValid = s.rspValid := rfl
@[simp] theorem releaseBlockRegs_flight (s : State) : (releaseBlockRegs s).flight = s.flight := rfl
@[simp] theorem releaseBlockRegs_fresh (s : State) : (releaseBlockRegs s).fresh = s.fresh + 1 := rfl
@[simp] theorem releaseBlockRegs_job (s : State) : (releaseBlockRegs s).job = s.job := rfl
@[simp] theorem releaseBlockRegs_results (s : State) : (releaseBlockRegs s).results = s.results := rfl
@[simp] theorem releaseBlockRegs_program (s : State) : (releaseBlockRegs s).program = s.program := rfl

/-! ### `keyDone`: the completion of LOADKEY (R108) -/

@[simp] theorem keyDone_ks (s : State) : (keyDone s).ks = s.ks := rfl
@[simp] theorem keyDone_kvalid (s : State) : (keyDone s).kvalid = true := rfl
@[simp] theorem keyDone_l (s : State) : (keyDone s).l = s.l := rfl
@[simp] theorem keyDone_r (s : State) : (keyDone s).r = s.r := rfl
@[simp] theorem keyDone_c (s : State) : (keyDone s).c = Config.freeC s.fresh := rfl
@[simp] theorem keyDone_d (s : State) : (keyDone s).d = Config.freeD s.fresh := rfl
@[simp] theorem keyDone_stg (s : State) : (keyDone s).stg = Config.freeSTG s.fresh := rfl
@[simp] theorem keyDone_dir (s : State) : (keyDone s).dir = s.dir := rfl
@[simp] theorem keyDone_busy (s : State) : (keyDone s).busy = false := rfl
@[simp] theorem keyDone_rsp (s : State) : (keyDone s).rsp = responseWord .ok 0 := rfl
@[simp] theorem keyDone_rspValid (s : State) : (keyDone s).rspValid = true := rfl
@[simp] theorem keyDone_flight (s : State) : (keyDone s).flight = s.flight := rfl
@[simp] theorem keyDone_fresh (s : State) : (keyDone s).fresh = s.fresh + 1 := rfl
@[simp] theorem keyDone_job (s : State) : (keyDone s).job = s.job := rfl
@[simp] theorem keyDone_results (s : State) : (keyDone s).results = s.results := rfl
@[simp] theorem keyDone_program (s : State) : (keyDone s).program = s.program := rfl

/-! ### `blockDone`: the end of a block command (R123) -/

@[simp] theorem blockDone_ks (out : Block) (s : State) : (blockDone out s).ks = s.ks := rfl
@[simp] theorem blockDone_kvalid (out : Block) (s : State) : (blockDone out s).kvalid = s.kvalid := rfl
@[simp] theorem blockDone_l (out : Block) (s : State) : (blockDone out s).l = Config.freeL s.fresh := rfl
@[simp] theorem blockDone_r (out : Block) (s : State) : (blockDone out s).r = Config.freeR s.fresh := rfl
@[simp] theorem blockDone_c (out : Block) (s : State) : (blockDone out s).c = s.c := rfl
@[simp] theorem blockDone_d (out : Block) (s : State) : (blockDone out s).d = s.d := rfl
@[simp] theorem blockDone_stg (out : Block) (s : State) : (blockDone out s).stg = Config.freeSTG s.fresh := rfl
@[simp] theorem blockDone_dir (out : Block) (s : State) : (blockDone out s).dir = Config.freeDIR s.fresh := rfl
@[simp] theorem blockDone_busy (out : Block) (s : State) : (blockDone out s).busy = false := rfl
@[simp] theorem blockDone_rsp (out : Block) (s : State) : (blockDone out s).rsp = responseWord .ok out := rfl
@[simp] theorem blockDone_rspValid (out : Block) (s : State) : (blockDone out s).rspValid = true := rfl
@[simp] theorem blockDone_flight (out : Block) (s : State) : (blockDone out s).flight = s.flight := rfl
@[simp] theorem blockDone_fresh (out : Block) (s : State) : (blockDone out s).fresh = s.fresh + 1 := rfl
@[simp] theorem blockDone_job (out : Block) (s : State) : (blockDone out s).job = s.job := rfl
@[simp] theorem blockDone_results (out : Block) (s : State) : (blockDone out s).results = s.results := rfl
@[simp] theorem blockDone_program (out : Block) (s : State) : (blockDone out s).program = s.program := rfl

/-! ### `resetCore`: the reset event (R165) -/

@[simp] theorem resetCore_ks (s : State) : (resetCore s).ks = Config.freeKS s.fresh := rfl
@[simp] theorem resetCore_kvalid (s : State) : (resetCore s).kvalid = false := rfl
@[simp] theorem resetCore_l (s : State) : (resetCore s).l = Config.freeL s.fresh := rfl
@[simp] theorem resetCore_r (s : State) : (resetCore s).r = Config.freeR s.fresh := rfl
@[simp] theorem resetCore_c (s : State) : (resetCore s).c = Config.freeC s.fresh := rfl
@[simp] theorem resetCore_d (s : State) : (resetCore s).d = Config.freeD s.fresh := rfl
@[simp] theorem resetCore_stg (s : State) : (resetCore s).stg = Config.freeSTG s.fresh := rfl
@[simp] theorem resetCore_dir (s : State) : (resetCore s).dir = Config.freeDIR s.fresh := rfl
@[simp] theorem resetCore_busy (s : State) : (resetCore s).busy = false := rfl
@[simp] theorem resetCore_rsp (s : State) : (resetCore s).rsp = Config.freeRSP s.fresh := rfl
@[simp] theorem resetCore_rspValid (s : State) : (resetCore s).rspValid = false := rfl
@[simp] theorem resetCore_flight (s : State) : (resetCore s).flight = s.flight := rfl
@[simp] theorem resetCore_fresh (s : State) : (resetCore s).fresh = s.fresh + 1 := rfl
@[simp] theorem resetCore_job (s : State) : (resetCore s).job = s.job := rfl
@[simp] theorem resetCore_results (s : State) : (resetCore s).results = s.results := rfl
@[simp] theorem resetCore_program (s : State) : (resetCore s).program = s.program := rfl

/-! ### `writeKS`: `KS[i] <- k` (R107) -/

@[simp] theorem writeKS_ks (i : SubkeyIndex) (k : Subkey) (s : State) :
    (writeKS s i k).ks = s.ks.set i.toNat k i.isLt := rfl
@[simp] theorem writeKS_kvalid (i : SubkeyIndex) (k : Subkey) (s : State) : (writeKS s i k).kvalid = s.kvalid := rfl
@[simp] theorem writeKS_l (i : SubkeyIndex) (k : Subkey) (s : State) : (writeKS s i k).l = s.l := rfl
@[simp] theorem writeKS_r (i : SubkeyIndex) (k : Subkey) (s : State) : (writeKS s i k).r = s.r := rfl
@[simp] theorem writeKS_c (i : SubkeyIndex) (k : Subkey) (s : State) : (writeKS s i k).c = s.c := rfl
@[simp] theorem writeKS_d (i : SubkeyIndex) (k : Subkey) (s : State) : (writeKS s i k).d = s.d := rfl
@[simp] theorem writeKS_stg (i : SubkeyIndex) (k : Subkey) (s : State) : (writeKS s i k).stg = s.stg := rfl
@[simp] theorem writeKS_dir (i : SubkeyIndex) (k : Subkey) (s : State) : (writeKS s i k).dir = s.dir := rfl
@[simp] theorem writeKS_busy (i : SubkeyIndex) (k : Subkey) (s : State) : (writeKS s i k).busy = s.busy := rfl
@[simp] theorem writeKS_rsp (i : SubkeyIndex) (k : Subkey) (s : State) : (writeKS s i k).rsp = s.rsp := rfl
@[simp] theorem writeKS_rspValid (i : SubkeyIndex) (k : Subkey) (s : State) :
    (writeKS s i k).rspValid = s.rspValid := rfl
@[simp] theorem writeKS_flight (i : SubkeyIndex) (k : Subkey) (s : State) : (writeKS s i k).flight = s.flight := rfl
@[simp] theorem writeKS_fresh (i : SubkeyIndex) (k : Subkey) (s : State) : (writeKS s i k).fresh = s.fresh := rfl
@[simp] theorem writeKS_job (i : SubkeyIndex) (k : Subkey) (s : State) : (writeKS s i k).job = s.job := rfl
@[simp] theorem writeKS_results (i : SubkeyIndex) (k : Subkey) (s : State) :
    (writeKS s i k).results = s.results := rfl
@[simp] theorem writeKS_program (i : SubkeyIndex) (k : Subkey) (s : State) :
    (writeKS s i k).program = s.program := rfl

/-! ### `keyStart`: LOADKEY stage 0 (R106) -/

@[simp] theorem keyStart_ks (key : Key) (s : State) : (keyStart key s).ks = s.ks := rfl
@[simp] theorem keyStart_kvalid (key : Key) (s : State) : (keyStart key s).kvalid = false := rfl
@[simp] theorem keyStart_l (key : Key) (s : State) : (keyStart key s).l = s.l := rfl
@[simp] theorem keyStart_r (key : Key) (s : State) : (keyStart key s).r = s.r := rfl
@[simp] theorem keyStart_c (key : Key) (s : State) : (keyStart key s).c = (keyHalves key).1 := rfl
@[simp] theorem keyStart_d (key : Key) (s : State) : (keyStart key s).d = (keyHalves key).2 := rfl
@[simp] theorem keyStart_stg (key : Key) (s : State) : (keyStart key s).stg = 1 := rfl
@[simp] theorem keyStart_dir (key : Key) (s : State) : (keyStart key s).dir = s.dir := rfl
@[simp] theorem keyStart_busy (key : Key) (s : State) : (keyStart key s).busy = true := rfl
@[simp] theorem keyStart_rsp (key : Key) (s : State) : (keyStart key s).rsp = s.rsp := rfl
@[simp] theorem keyStart_rspValid (key : Key) (s : State) : (keyStart key s).rspValid = false := rfl
@[simp] theorem keyStart_flight (key : Key) (s : State) : (keyStart key s).flight = .keyLoad := rfl
@[simp] theorem keyStart_fresh (key : Key) (s : State) : (keyStart key s).fresh = s.fresh := rfl
@[simp] theorem keyStart_job (key : Key) (s : State) : (keyStart key s).job = s.job := rfl
@[simp] theorem keyStart_results (key : Key) (s : State) : (keyStart key s).results = s.results := rfl
@[simp] theorem keyStart_program (key : Key) (s : State) : (keyStart key s).program = s.program := rfl

/-! ### `keyRound`: a round of a key load (R107) -/

@[simp] theorem keyRound_ks (s : State) : (keyRound s).ks =
    s.ks.set (roundIndex s).toNat
      (selectSubkey (rotl28 s.c (shiftAt (roundIndex s))) (rotl28 s.d (shiftAt (roundIndex s)))) (roundIndex s).isLt := rfl
@[simp] theorem keyRound_kvalid (s : State) : (keyRound s).kvalid = s.kvalid := rfl
@[simp] theorem keyRound_l (s : State) : (keyRound s).l = s.l := rfl
@[simp] theorem keyRound_r (s : State) : (keyRound s).r = s.r := rfl
@[simp] theorem keyRound_c (s : State) : (keyRound s).c = rotl28 s.c (shiftAt (roundIndex s)) := rfl
@[simp] theorem keyRound_d (s : State) : (keyRound s).d = rotl28 s.d (shiftAt (roundIndex s)) := rfl
@[simp] theorem keyRound_stg (s : State) : (keyRound s).stg = s.stg + 1 := rfl
@[simp] theorem keyRound_dir (s : State) : (keyRound s).dir = s.dir := rfl
@[simp] theorem keyRound_busy (s : State) : (keyRound s).busy = s.busy := rfl
@[simp] theorem keyRound_rsp (s : State) : (keyRound s).rsp = s.rsp := rfl
@[simp] theorem keyRound_rspValid (s : State) : (keyRound s).rspValid = s.rspValid := rfl
@[simp] theorem keyRound_flight (s : State) : (keyRound s).flight = s.flight := rfl
@[simp] theorem keyRound_fresh (s : State) : (keyRound s).fresh = s.fresh := rfl
@[simp] theorem keyRound_job (s : State) : (keyRound s).job = s.job := rfl
@[simp] theorem keyRound_results (s : State) : (keyRound s).results = s.results := rfl
@[simp] theorem keyRound_program (s : State) : (keyRound s).program = s.program := rfl

/-! ### `blockStart`: block stage 0 (R121) -/

@[simp] theorem blockStart_ks (dir : Bool) (block : Block) (s : State) : (blockStart dir block s).ks = s.ks := rfl
@[simp] theorem blockStart_kvalid (dir : Bool) (block : Block) (s : State) :
    (blockStart dir block s).kvalid = s.kvalid := rfl
@[simp] theorem blockStart_l (dir : Bool) (block : Block) (s : State) :
    (blockStart dir block s).l = (initialHalves block).1 := rfl
@[simp] theorem blockStart_r (dir : Bool) (block : Block) (s : State) :
    (blockStart dir block s).r = (initialHalves block).2 := rfl
@[simp] theorem blockStart_c (dir : Bool) (block : Block) (s : State) : (blockStart dir block s).c = s.c := rfl
@[simp] theorem blockStart_d (dir : Bool) (block : Block) (s : State) : (blockStart dir block s).d = s.d := rfl
@[simp] theorem blockStart_stg (dir : Bool) (block : Block) (s : State) : (blockStart dir block s).stg = 1 := rfl
@[simp] theorem blockStart_dir (dir : Bool) (block : Block) (s : State) : (blockStart dir block s).dir = dir := rfl
@[simp] theorem blockStart_busy (dir : Bool) (block : Block) (s : State) : (blockStart dir block s).busy = true := rfl
@[simp] theorem blockStart_rsp (dir : Bool) (block : Block) (s : State) : (blockStart dir block s).rsp = s.rsp := rfl
@[simp] theorem blockStart_rspValid (dir : Bool) (block : Block) (s : State) :
    (blockStart dir block s).rspValid = false := rfl
@[simp] theorem blockStart_flight (dir : Bool) (block : Block) (s : State) :
    (blockStart dir block s).flight = .block := rfl
@[simp] theorem blockStart_fresh (dir : Bool) (block : Block) (s : State) :
    (blockStart dir block s).fresh = s.fresh := rfl
@[simp] theorem blockStart_job (dir : Bool) (block : Block) (s : State) : (blockStart dir block s).job = s.job := rfl
@[simp] theorem blockStart_results (dir : Bool) (block : Block) (s : State) :
    (blockStart dir block s).results = s.results := rfl
@[simp] theorem blockStart_program (dir : Bool) (block : Block) (s : State) :
    (blockStart dir block s).program = s.program := rfl

/-! ### `blockRound`: a round of a block command (R122) -/

@[simp] theorem blockRound_ks (s : State) : (blockRound s).ks = s.ks := rfl
@[simp] theorem blockRound_kvalid (s : State) : (blockRound s).kvalid = s.kvalid := rfl
@[simp] theorem blockRound_l (s : State) : (blockRound s).l = s.r := rfl
@[simp] theorem blockRound_r (s : State) :
    (blockRound s).r = s.l ^^^ roundFunction s.r (readKS s (sel s.dir (roundIndex s))) := rfl
@[simp] theorem blockRound_c (s : State) : (blockRound s).c = s.c := rfl
@[simp] theorem blockRound_d (s : State) : (blockRound s).d = s.d := rfl
@[simp] theorem blockRound_stg (s : State) : (blockRound s).stg = s.stg + 1 := rfl
@[simp] theorem blockRound_dir (s : State) : (blockRound s).dir = s.dir := rfl
@[simp] theorem blockRound_busy (s : State) : (blockRound s).busy = s.busy := rfl
@[simp] theorem blockRound_rsp (s : State) : (blockRound s).rsp = s.rsp := rfl
@[simp] theorem blockRound_rspValid (s : State) : (blockRound s).rspValid = s.rspValid := rfl
@[simp] theorem blockRound_flight (s : State) : (blockRound s).flight = s.flight := rfl
@[simp] theorem blockRound_fresh (s : State) : (blockRound s).fresh = s.fresh := rfl
@[simp] theorem blockRound_job (s : State) : (blockRound s).job = s.job := rfl
@[simp] theorem blockRound_results (s : State) : (blockRound s).results = s.results := rfl
@[simp] theorem blockRound_program (s : State) : (blockRound s).program = s.program := rfl

/-! ### `answerStart`: acceptance of a command without stages (R46) -/

@[simp] theorem answerStart_ks (status : Status) (data : BitVec 64) (s : State) :
    (answerStart status data s).ks = s.ks := rfl
@[simp] theorem answerStart_kvalid (status : Status) (data : BitVec 64) (s : State) :
    (answerStart status data s).kvalid = s.kvalid := rfl
@[simp] theorem answerStart_l (status : Status) (data : BitVec 64) (s : State) :
    (answerStart status data s).l = s.l := rfl
@[simp] theorem answerStart_r (status : Status) (data : BitVec 64) (s : State) :
    (answerStart status data s).r = s.r := rfl
@[simp] theorem answerStart_c (status : Status) (data : BitVec 64) (s : State) :
    (answerStart status data s).c = s.c := rfl
@[simp] theorem answerStart_d (status : Status) (data : BitVec 64) (s : State) :
    (answerStart status data s).d = s.d := rfl
@[simp] theorem answerStart_stg (status : Status) (data : BitVec 64) (s : State) :
    (answerStart status data s).stg = s.stg := rfl
@[simp] theorem answerStart_dir (status : Status) (data : BitVec 64) (s : State) :
    (answerStart status data s).dir = s.dir := rfl
@[simp] theorem answerStart_busy (status : Status) (data : BitVec 64) (s : State) :
    (answerStart status data s).busy = true := rfl
@[simp] theorem answerStart_rsp (status : Status) (data : BitVec 64) (s : State) :
    (answerStart status data s).rsp = s.rsp := rfl
@[simp] theorem answerStart_rspValid (status : Status) (data : BitVec 64) (s : State) :
    (answerStart status data s).rspValid = false := rfl
@[simp] theorem answerStart_flight (status : Status) (data : BitVec 64) (s : State) :
    (answerStart status data s).flight = .answer (responseWord status data) := rfl
@[simp] theorem answerStart_fresh (status : Status) (data : BitVec 64) (s : State) :
    (answerStart status data s).fresh = s.fresh := rfl
@[simp] theorem answerStart_job (status : Status) (data : BitVec 64) (s : State) :
    (answerStart status data s).job = s.job := rfl
@[simp] theorem answerStart_results (status : Status) (data : BitVec 64) (s : State) :
    (answerStart status data s).results = s.results := rfl
@[simp] theorem answerStart_program (status : Status) (data : BitVec 64) (s : State) :
    (answerStart status data s).program = s.program := rfl

/-! ### `answerStage`: a settled response given (R52) -/

@[simp] theorem answerStage_ks (w : ResponseWord) (s : State) : (answerStage w s).ks = s.ks := rfl
@[simp] theorem answerStage_kvalid (w : ResponseWord) (s : State) : (answerStage w s).kvalid = s.kvalid := rfl
@[simp] theorem answerStage_l (w : ResponseWord) (s : State) : (answerStage w s).l = s.l := rfl
@[simp] theorem answerStage_r (w : ResponseWord) (s : State) : (answerStage w s).r = s.r := rfl
@[simp] theorem answerStage_c (w : ResponseWord) (s : State) : (answerStage w s).c = s.c := rfl
@[simp] theorem answerStage_d (w : ResponseWord) (s : State) : (answerStage w s).d = s.d := rfl
@[simp] theorem answerStage_stg (w : ResponseWord) (s : State) : (answerStage w s).stg = s.stg := rfl
@[simp] theorem answerStage_dir (w : ResponseWord) (s : State) : (answerStage w s).dir = s.dir := rfl
@[simp] theorem answerStage_busy (w : ResponseWord) (s : State) : (answerStage w s).busy = false := rfl
@[simp] theorem answerStage_rsp (w : ResponseWord) (s : State) : (answerStage w s).rsp = w := rfl
@[simp] theorem answerStage_rspValid (w : ResponseWord) (s : State) : (answerStage w s).rspValid = true := rfl
@[simp] theorem answerStage_flight (w : ResponseWord) (s : State) : (answerStage w s).flight = s.flight := rfl
@[simp] theorem answerStage_fresh (w : ResponseWord) (s : State) : (answerStage w s).fresh = s.fresh := rfl
@[simp] theorem answerStage_job (w : ResponseWord) (s : State) : (answerStage w s).job = s.job := rfl
@[simp] theorem answerStage_results (w : ResponseWord) (s : State) : (answerStage w s).results = s.results := rfl
@[simp] theorem answerStage_program (w : ResponseWord) (s : State) : (answerStage w s).program = s.program := rfl

/-! ### `startJob`: a buffer operation begun (R132) -/

@[simp] theorem startJob_ks (dir : Bool) (source : List Byte) (s : State) : (startJob dir source s).ks = s.ks := rfl
@[simp] theorem startJob_kvalid (dir : Bool) (source : List Byte) (s : State) :
    (startJob dir source s).kvalid = s.kvalid := rfl
@[simp] theorem startJob_l (dir : Bool) (source : List Byte) (s : State) : (startJob dir source s).l = s.l := rfl
@[simp] theorem startJob_r (dir : Bool) (source : List Byte) (s : State) : (startJob dir source s).r = s.r := rfl
@[simp] theorem startJob_c (dir : Bool) (source : List Byte) (s : State) : (startJob dir source s).c = s.c := rfl
@[simp] theorem startJob_d (dir : Bool) (source : List Byte) (s : State) : (startJob dir source s).d = s.d := rfl
@[simp] theorem startJob_stg (dir : Bool) (source : List Byte) (s : State) :
    (startJob dir source s).stg = s.stg := rfl
@[simp] theorem startJob_dir (dir : Bool) (source : List Byte) (s : State) :
    (startJob dir source s).dir = s.dir := rfl
@[simp] theorem startJob_busy (dir : Bool) (source : List Byte) (s : State) :
    (startJob dir source s).busy = s.busy := rfl
@[simp] theorem startJob_rsp (dir : Bool) (source : List Byte) (s : State) :
    (startJob dir source s).rsp = s.rsp := rfl
@[simp] theorem startJob_rspValid (dir : Bool) (source : List Byte) (s : State) :
    (startJob dir source s).rspValid = false := rfl
@[simp] theorem startJob_flight (dir : Bool) (source : List Byte) (s : State) :
    (startJob dir source s).flight = s.flight := rfl
@[simp] theorem startJob_fresh (dir : Bool) (source : List Byte) (s : State) :
    (startJob dir source s).fresh = s.fresh := rfl
@[simp] theorem startJob_job (dir : Bool) (source : List Byte) (s : State) :
    (startJob dir source s).job = some { dir := dir, source := source, out := newBuffer source.length, next := 0 } := rfl
@[simp] theorem startJob_results (dir : Bool) (source : List Byte) (s : State) :
    (startJob dir source s).results = s.results := rfl
@[simp] theorem startJob_program (dir : Bool) (source : List Byte) (s : State) :
    (startJob dir source s).program = s.program := rfl

/-! ### `endJob`: a buffer operation ended (R150) -/

@[simp] theorem endJob_ks (res : BufResult) (s : State) : (endJob res s).ks = s.ks := rfl
@[simp] theorem endJob_kvalid (res : BufResult) (s : State) : (endJob res s).kvalid = s.kvalid := rfl
@[simp] theorem endJob_l (res : BufResult) (s : State) : (endJob res s).l = s.l := rfl
@[simp] theorem endJob_r (res : BufResult) (s : State) : (endJob res s).r = s.r := rfl
@[simp] theorem endJob_c (res : BufResult) (s : State) : (endJob res s).c = s.c := rfl
@[simp] theorem endJob_d (res : BufResult) (s : State) : (endJob res s).d = s.d := rfl
@[simp] theorem endJob_stg (res : BufResult) (s : State) : (endJob res s).stg = s.stg := rfl
@[simp] theorem endJob_dir (res : BufResult) (s : State) : (endJob res s).dir = s.dir := rfl
@[simp] theorem endJob_busy (res : BufResult) (s : State) : (endJob res s).busy = s.busy := rfl
@[simp] theorem endJob_rsp (res : BufResult) (s : State) : (endJob res s).rsp = s.rsp := rfl
@[simp] theorem endJob_rspValid (res : BufResult) (s : State) : (endJob res s).rspValid = s.rspValid := rfl
@[simp] theorem endJob_flight (res : BufResult) (s : State) : (endJob res s).flight = s.flight := rfl
@[simp] theorem endJob_fresh (res : BufResult) (s : State) : (endJob res s).fresh = s.fresh := rfl
@[simp] theorem endJob_job (res : BufResult) (s : State) : (endJob res s).job = none := rfl
@[simp] theorem endJob_results (res : BufResult) (s : State) : (endJob res s).results = s.results ++ [res] := rfl
@[simp] theorem endJob_program (res : BufResult) (s : State) : (endJob res s).program = s.program := rfl

end Sys2Proof.Machine
end

