-- ==== Sys2Proof/Laws/Exec.lean ====
section
/-!
SUPPORT. What each command does, as equations that later proofs cite instead of unfolding `exec`; and what every command
does and leaves alone.
-/

namespace Sys2Proof.Machine

/-! ### The commands, one equation each -/

theorem exec_loadkey (key : Key) (s : State) :
    exec (.loadkey key) s = .next (keyDone { s with ks := schedule key, flight := .keyLoad }) := rfl

theorem exec_encrypt (block : Block) (s : State) : exec (.encrypt block) s = .next (blockCommand false block s) := rfl

theorem exec_decrypt (block : Block) (s : State) : exec (.decrypt block) s = .next (blockCommand true block s) := rfl

theorem exec_rdsk (idx : SubkeyIndex) (s : State) : exec (.rdsk idx) s =
    if s.kvalid then .next (answer .ok (zext64 (readKS s idx)) s) else .next (reject .errNoKey s) := rfl

theorem exec_reserved0 (s : State) : exec .reserved0 s = .next (reject .errIllOp s) := rfl

theorem exec_reserved5 (s : State) : exec .reserved5 s = .next (reject .errIllOp s) := rfl

theorem exec_reserved6 (s : State) : exec .reserved6 s = .next (reject .errIllOp s) := rfl

theorem exec_reserved7 (s : State) : exec .reserved7 s = .next (reject .errIllOp s) := rfl

theorem blockCommand_of_kvalid (dir : Bool) (block : Block) (s : State) (h : s.kvalid = true) :
    blockCommand dir block s = blockDone (crypt block s.ks dir) { s with flight := .block } := by
  rw [blockCommand, if_pos h]

theorem blockCommand_of_not_kvalid (dir : Bool) (block : Block) (s : State) (h : s.kvalid = false) :
    blockCommand dir block s = reject .errNoKey s := by
  rw [blockCommand, if_neg (by simp [h])]

theorem exec_encrypt_of_kvalid (block : Block) (s : State) (h : s.kvalid = true) :
    exec (.encrypt block) s = .next (blockDone (crypt block s.ks false) { s with flight := .block }) := by
  rw [exec_encrypt, blockCommand_of_kvalid _ _ _ h]

theorem exec_decrypt_of_kvalid (block : Block) (s : State) (h : s.kvalid = true) :
    exec (.decrypt block) s = .next (blockDone (crypt block s.ks true) { s with flight := .block }) := by
  rw [exec_decrypt, blockCommand_of_kvalid _ _ _ h]

theorem exec_rdsk_of_kvalid (idx : SubkeyIndex) (s : State) (h : s.kvalid = true) :
    exec (.rdsk idx) s = .next (answer .ok (zext64 (readKS s idx)) s) := by
  rw [exec_rdsk, if_pos h]

theorem exec_encrypt_of_not_kvalid (block : Block) (s : State) (h : s.kvalid = false) :
    exec (.encrypt block) s = .next (reject .errNoKey s) := by
  rw [exec_encrypt, blockCommand_of_not_kvalid _ _ _ h]

theorem exec_decrypt_of_not_kvalid (block : Block) (s : State) (h : s.kvalid = false) :
    exec (.decrypt block) s = .next (reject .errNoKey s) := by
  rw [exec_decrypt, blockCommand_of_not_kvalid _ _ _ h]

theorem exec_rdsk_of_not_kvalid (idx : SubkeyIndex) (s : State) (h : s.kvalid = false) :
    exec (.rdsk idx) s = .next (reject .errNoKey s) := by
  rw [exec_rdsk, if_neg (by simp [h])]

/-- Everything a command can do: a key load, a block command or an answer that touches no register but the response's. -/
theorem exec_cases (i : Instr) (s : State) :
    (∃ key, i = .loadkey key ∧ exec i s = .next (keyDone { s with ks := schedule key, flight := .keyLoad })) ∨
    (∃ dir block, s.kvalid = true ∧ i = (if dir then .decrypt block else .encrypt block) ∧
      exec i s = .next (blockDone (crypt block s.ks dir) { s with flight := .block })) ∨
    (∃ idx, s.kvalid = true ∧ i = .rdsk idx ∧ exec i s = .next (answer .ok (zext64 (readKS s idx)) s)) ∨
    (∃ status, status ≠ .ok ∧ (∀ key, i ≠ .loadkey key) ∧ exec i s = .next (reject status s)) := by
  rcases Bool.eq_false_or_eq_true s.kvalid with hk | hk
  · cases i with
    | loadkey key => exact .inl ⟨key, rfl, rfl⟩
    | encrypt block => exact .inr (.inl ⟨false, block, hk, rfl, exec_encrypt_of_kvalid _ _ hk⟩)
    | decrypt block => exact .inr (.inl ⟨true, block, hk, rfl, exec_decrypt_of_kvalid _ _ hk⟩)
    | rdsk idx => exact .inr (.inr (.inl ⟨idx, hk, rfl, exec_rdsk_of_kvalid _ _ hk⟩))
    | reserved0 => exact .inr (.inr (.inr ⟨.errIllOp, by simp, by simp, rfl⟩))
    | reserved5 => exact .inr (.inr (.inr ⟨.errIllOp, by simp, by simp, rfl⟩))
    | reserved6 => exact .inr (.inr (.inr ⟨.errIllOp, by simp, by simp, rfl⟩))
    | reserved7 => exact .inr (.inr (.inr ⟨.errIllOp, by simp, by simp, rfl⟩))
  · cases i with
    | loadkey key => exact .inl ⟨key, rfl, rfl⟩
    | encrypt block => exact .inr (.inr (.inr ⟨.errNoKey, by simp, by simp, exec_encrypt_of_not_kvalid _ _ hk⟩))
    | decrypt block => exact .inr (.inr (.inr ⟨.errNoKey, by simp, by simp, exec_decrypt_of_not_kvalid _ _ hk⟩))
    | rdsk idx => exact .inr (.inr (.inr ⟨.errNoKey, by simp, by simp, exec_rdsk_of_not_kvalid _ _ hk⟩))
    | reserved0 => exact .inr (.inr (.inr ⟨.errIllOp, by simp, by simp, rfl⟩))
    | reserved5 => exact .inr (.inr (.inr ⟨.errIllOp, by simp, by simp, rfl⟩))
    | reserved6 => exact .inr (.inr (.inr ⟨.errIllOp, by simp, by simp, rfl⟩))
    | reserved7 => exact .inr (.inr (.inr ⟨.errIllOp, by simp, by simp, rfl⟩))

/-- No command stops the machine (R152). -/
theorem exec_next (i : Instr) (s : State) : ∃ t, exec i s = .next t := by
  obtain ⟨_, _, h⟩ | ⟨_, _, _, _, h⟩ | ⟨_, _, _, h⟩ | ⟨_, _, _, h⟩ := exec_cases i s <;> exact ⟨_, h⟩

/-- No command touches what the host holds: its program, the operation in progress, the results. -/
theorem exec_host_frame {i : Instr} {s t : State} (h : exec i s = .next t) :
    t.job = s.job ∧ t.results = s.results ∧ t.program = s.program := by
  obtain ⟨_, _, h'⟩ | ⟨_, _, _, _, h'⟩ | ⟨_, _, _, h'⟩ | ⟨_, _, _, h'⟩ := exec_cases i s <;>
    (rw [h'] at h; cases h; exact ⟨rfl, rfl, rfl⟩)

/-- The status of a response word (R52). -/
@[simp] theorem responseStatus_responseWord (status : Status) (data : BitVec 64) :
    responseStatus (responseWord status data) = status.code := extractLsb'_append_high _ _

/-- The data of a response word (R52). -/
@[simp] theorem responseData_responseWord (status : Status) (data : BitVec 64) :
    responseData (responseWord status data) = data := extractLsb'_append_low _ _

/-- A response is one that R52 allows. -/
theorem responseAllowed_ok (data : BitVec 64) : ResponseAllowed (responseWord .ok data) := by
  have h := responseStatus_responseWord .ok data
  exact ⟨by rw [h]; decide, fun hne => absurd h hne⟩

/-- So is a word whose data is 0. -/
theorem responseAllowed_zero (status : Status) : ResponseAllowed (responseWord status 0) := by
  cases status <;> (unfold ResponseAllowed; decide)

end Sys2Proof.Machine
end

