-- ==== Sys2Proof/Laws/Staged.lean ====
section
/-!
SUPPORT. The stages of a command: what each stage does, that the number of stages done at an edge only adds up, and what
every stage leaves alone.
-/

namespace Sys2Proof.Machine

/-! ### One stage -/

theorem keyStage_last (s : State) (h : s.stg = 16) : keyStage s = keyDone (keyRound s) := if_pos h

theorem keyStage_round (s : State) (h : s.stg ≠ 16) : keyStage s = keyRound s := if_neg h

theorem blockStage_last (s : State) (h : s.stg = 17) :
    blockStage s = blockDone (finalBlock (s.l, s.r)) s := if_pos h

theorem blockStage_round (s : State) (h : s.stg ≠ 17) : blockStage s = blockRound s := if_neg h

theorem stage_keyLoad (s : State) (h : s.flight = .keyLoad) : stage s = keyStage s := by rw [stage, h]

theorem stage_block (s : State) (h : s.flight = .block) : stage s = blockStage s := by rw [stage, h]

theorem stage_answer (s : State) (w : ResponseWord) (h : s.flight = .answer w) : stage s = answerStage w s := by
  rw [stage, h]

/-- Everything a stage can do: a round or the end of a key load, a round or the end of a block command, an answer. -/
theorem stage_cases (s : State) :
    (s.flight = .keyLoad ∧ s.stg ≠ 16 ∧ stage s = keyRound s) ∨
    (s.flight = .keyLoad ∧ s.stg = 16 ∧ stage s = keyDone (keyRound s)) ∨
    (s.flight = .block ∧ s.stg ≠ 17 ∧ stage s = blockRound s) ∨
    (s.flight = .block ∧ s.stg = 17 ∧ stage s = blockDone (finalBlock (s.l, s.r)) s) ∨
    (∃ w, s.flight = .answer w ∧ stage s = answerStage w s) := by
  match h : s.flight with
  | .keyLoad =>
    rw [stage_keyLoad s h]
    by_cases h16 : s.stg = 16
    · exact .inr (.inl ⟨rfl, h16, keyStage_last s h16⟩)
    · exact .inl ⟨rfl, h16, keyStage_round s h16⟩
  | .block =>
    rw [stage_block s h]
    by_cases h17 : s.stg = 17
    · exact .inr (.inr (.inr (.inl ⟨rfl, h17, blockStage_last s h17⟩)))
    · exact .inr (.inr (.inl ⟨rfl, h17, blockStage_round s h17⟩))
  | .answer w => exact .inr (.inr (.inr (.inr ⟨w, rfl, stage_answer s w h⟩)))

/-- A stage leaves the host's data alone. -/
theorem stage_host_frame (s : State) :
    (stage s).job = s.job ∧ (stage s).results = s.results ∧ (stage s).program = s.program := by
  obtain ⟨_, _, h⟩ | ⟨_, _, h⟩ | ⟨_, _, h⟩ | ⟨_, _, h⟩ | ⟨_, _, h⟩ := stage_cases s <;> rw [h] <;> simp

/-- Only a key load's stages change `KS` or `KVALID` (R21). -/
theorem stage_store_frame (s : State) (h : s.flight ≠ .keyLoad) :
    (stage s).ks = s.ks ∧ (stage s).kvalid = s.kvalid := by
  obtain ⟨h', _, _⟩ | ⟨h', _, _⟩ | ⟨_, _, h'⟩ | ⟨_, _, h'⟩ | ⟨_, _, h'⟩ := stage_cases s
  · exact absurd h' h
  · exact absurd h' h
  all_goals rw [h']; simp

/-- A stage does not change which command is in flight. -/
theorem stage_flight (s : State) : (stage s).flight = s.flight := by
  obtain ⟨_, _, h⟩ | ⟨_, _, h⟩ | ⟨_, _, h⟩ | ⟨_, _, h⟩ | ⟨_, _, h⟩ := stage_cases s <;> rw [h] <;> simp

/-- No stage clears `KVALID`: a key load clears it when it is accepted (R106). -/
theorem stage_kvalid (s : State) (h : s.kvalid = true) : (stage s).kvalid = true := by
  obtain ⟨_, _, h'⟩ | ⟨_, _, h'⟩ | ⟨_, _, h'⟩ | ⟨_, _, h'⟩ | ⟨_, _, h'⟩ := stage_cases s <;> rw [h'] <;> simp [h]

/-! ### Many stages -/

@[simp] theorem runStages_zero (s : State) : runStages 0 s = s := rfl

theorem runStages_succ (n : Nat) (s : State) (h : s.busy = true) : runStages (n + 1) s = runStages n (stage s) := by
  rw [runStages, if_pos h]

/-- An idle core has no stage to do. -/
theorem runStages_idle (n : Nat) (s : State) (h : s.busy = false) : runStages n s = s := by
  cases n with
  | zero => rfl
  | succ n => rw [runStages, if_neg (by simp [h])]

/-- Stages add up. -/
theorem runStages_add (m n : Nat) (s : State) : runStages (m + n) s = runStages n (runStages m s) := by
  induction m generalizing s with
  | zero => simp
  | succ m ih =>
    rcases Bool.eq_false_or_eq_true s.busy with h | h
    · rw [show m + 1 + n = m + n + 1 by omega, runStages_succ _ _ h, runStages_succ _ _ h, ih]
    · rw [runStages_idle _ _ h, runStages_idle (m + 1) _ h, runStages_idle _ _ h]

/-- What every stage keeps, a run of stages keeps. -/
theorem runStages_induction {P : State → Prop} (step : ∀ s, s.busy = true → P s → P (stage s)) (n : Nat) (s : State)
    (h : P s) : P (runStages n s) := by
  induction n generalizing s with
  | zero => exact h
  | succ n ih =>
    rcases Bool.eq_false_or_eq_true s.busy with hb | hb
    · rw [runStages_succ _ _ hb]; exact ih _ (step s hb h)
    · rwa [runStages_idle _ _ hb]

/-! ### Stage numbers -/

/-- The round of stage `n + 1` is round `n`. -/
theorem roundIndex_of_stg (s : State) (n : Nat) (hn : n < 16) (h : s.stg = BitVec.ofNat 5 (n + 1)) :
    roundIndex s = BitVec.ofNat 4 n := by
  have hall : ∀ n : Fin 16, (BitVec.ofNat 5 (n.val + 1) - 1).setWidth 4 = BitVec.ofNat 4 n.val := by decide
  rw [roundIndex, h]
  exact hall ⟨n, hn⟩

/-- The stage after stage `n + 1` is stage `n + 2`. -/
theorem stg_succ (n : Nat) : BitVec.ofNat 5 (n + 1) + 1 = BitVec.ofNat 5 (n + 2) := by
  apply BitVec.eq_of_toNat_eq
  simp [BitVec.toNat_add]

end Sys2Proof.Machine
end

