-- ==== Sys2Proof/Laws/Step.lean ====
section
/-!
SUPPORT. What one step of the machine can do, said once, and what a turn of the sequencer can do.
-/

namespace Sys2Proof.Machine

/-! ### The sequencer -/

theorem sequencerTurn_none (s : State) (h : s.job = none) : sequencerTurn s = .next (endPulse s) := by
  rw [sequencerTurn, h]

/-- A turn with an operation in progress is one block command and its response. -/
theorem sequencerTurn_some (s : State) (j : Job) (h : s.job = some j) :
    ∃ t, exec (jobCommand j) s = .next t ∧ sequencerTurn s = .next (takeResponse j t) := by
  obtain ⟨t, ht⟩ := exec_next (jobCommand j) s
  exact ⟨t, ht, by rw [sequencerTurn, h]; simp only [ht]⟩

/-- Everything a turn can do. -/
theorem sequencerTurn_cases (s : State) :
    (s.job = none ∧ sequencerTurn s = .next (endPulse s)) ∨
    (∃ j t, s.job = some j ∧ exec (jobCommand j) s = .next t ∧ sequencerTurn s = .next (takeResponse j t)) := by
  match h : s.job with
  | none => exact .inl ⟨rfl, sequencerTurn_none s h⟩
  | some j =>
    obtain ⟨t, ht, hs⟩ := sequencerTurn_some s j h
    exact .inr ⟨j, t, rfl, ht, hs⟩

/-- The sequencer's command is a block command. -/
theorem jobCommand_ne_loadkey (j : Job) (key : Key) : jobCommand j ≠ .loadkey key := by
  rw [jobCommand]; split <;> simp

/-- Everything that taking a response can do to an operation. -/
theorem takeResponse_cases (j : Job) (s : State) :
    (responseStatus s.rsp = Status.ok.code ∧
      8 * (j.next + 1) < (memWrite j.out (8 * j.next) (responseData s.rsp)).length ∧
      takeResponse j s = { s with job := some { j with
        out := memWrite j.out (8 * j.next) (responseData s.rsp), next := j.next + 1 } }) ∨
    (responseStatus s.rsp = Status.ok.code ∧
      (memWrite j.out (8 * j.next) (responseData s.rsp)).length ≤ 8 * (j.next + 1) ∧
      takeResponse j s = endJob (.ok (memWrite j.out (8 * j.next) (responseData s.rsp))
        (memWrite j.out (8 * j.next) (responseData s.rsp)).length) s) ∨
    (responseStatus s.rsp ≠ Status.ok.code ∧ takeResponse j s = endJob (.error .invalidParameterNoKey) s) := by
  by_cases h : responseStatus s.rsp = Status.ok.code
  · by_cases hl : 8 * (j.next + 1) < (memWrite j.out (8 * j.next) (responseData s.rsp)).length
    · exact .inl ⟨h, hl, by rw [takeResponse, if_pos h]; exact if_pos hl⟩
    · exact .inr (.inl ⟨h, by omega, by rw [takeResponse, if_pos h]; exact if_neg hl⟩)
  · exact .inr (.inr ⟨h, by rw [takeResponse, if_neg h]⟩)

/-- Taking a response changes the operation and the results only. -/
theorem takeResponse_frame (j : Job) (s : State) :
    takeResponse j s = { s with job := (takeResponse j s).job, results := (takeResponse j s).results } := by
  obtain ⟨_, _, h⟩ | ⟨_, _, h⟩ | ⟨_, h⟩ := takeResponse_cases j s <;> rw [h] <;> rfl

/-! ### The start of a buffer operation -/

theorem startEncbuf_error (bytes : List Byte) (ok : Bool) (s : State) (e : BufError)
    (h : encbufCheck s.kvalid ok = some e) : startEncbuf bytes ok s = endJob (.error e) (endPulse s) := by
  have h' : encbufCheck (outputs s).keyValid ok = some e := h
  rw [startEncbuf, h']

theorem startEncbuf_job (bytes : List Byte) (ok : Bool) (s : State) (h : encbufCheck s.kvalid ok = none) :
    startEncbuf bytes ok s = startJob false (padded bytes) s := by
  have h' : encbufCheck (outputs s).keyValid ok = none := h
  rw [startEncbuf, h']

theorem startDecbuf_error (bytes : List Byte) (ok : Bool) (s : State) (e : BufError)
    (h : decbufCheck bytes s.kvalid ok = some e) : startDecbuf bytes ok s = endJob (.error e) (endPulse s) := by
  have h' : decbufCheck bytes (outputs s).keyValid ok = some e := h
  rw [startDecbuf, h']

theorem startDecbuf_job (bytes : List Byte) (ok : Bool) (s : State) (h : decbufCheck bytes s.kvalid ok = none) :
    startDecbuf bytes ok s = startJob true bytes s := by
  have h' : decbufCheck bytes (outputs s).keyValid ok = none := h
  rw [startDecbuf, h']

/-! ### One clock edge -/

/-- Everything a clock edge can do. -/
theorem clockEdge_cases (pins : Pins) (n : Nat) (s : State) :
    (pins.rst = true ∧ clockEdge pins n s = resetCore s) ∨
    (pins.rst = false ∧ s.busy = true ∧ clockEdge pins n s = runStages n s) ∨
    (pins.rst = false ∧ s.busy = false ∧ pins.cmdValid = true ∧
      clockEdge pins n s = runStages n (accept (decode pins.cmd) s)) ∨
    (pins.rst = false ∧ s.busy = false ∧ pins.cmdValid = false ∧ clockEdge pins n s = endPulse s) := by
  rw [clockEdge]
  cases pins.rst <;> rcases Bool.eq_false_or_eq_true s.busy with hb | hb <;> cases pins.cmdValid <;> simp [hb]

/-! ### One step -/

/-- Everything a step can do: a stage of a busy core, a turn of the sequencer, or the next event. -/
theorem step_cases (s : State) :
    (s.busy = true ∧ step s = .next (stage s)) ∨
    (s.busy = false ∧ (s.program = [] ∨ s.job ≠ none) ∧ step s = sequencerTurn s) ∨
    (∃ e rest, s.program = e :: rest ∧ (s.busy = true → e.waitsForReady = false) ∧
      (s.job ≠ none → e.waitsForOperation = false) ∧ step s = runEvent e { s with program := rest }) := by
  match h : s.program with
  | [] =>
    rcases Bool.eq_false_or_eq_true s.busy with hb | hb
    · exact .inl ⟨hb, by rw [step, h]; simp [quietStep, hb]⟩
    · exact .inr (.inl ⟨hb, .inl rfl, by rw [step, h]; simp [quietStep, hb]⟩)
  | e :: rest =>
    have hs : step s = eventStep e rest s := by rw [step, h]
    rw [hs, eventStep]
    by_cases hw : ((s.busy && e.waitsForReady) || (s.job.isSome && e.waitsForOperation)) = true
    · rw [if_pos hw]
      rcases Bool.eq_false_or_eq_true s.busy with hb | hb
      · exact .inl ⟨hb, by simp [quietStep, hb]⟩
      · refine .inr (.inl ⟨hb, .inr ?_, by simp [quietStep, hb]⟩)
        intro hj
        simp [hb, hj] at hw
    · rw [if_neg hw]
      simp only [Bool.or_eq_true, Bool.and_eq_true, not_or, not_and, Bool.not_eq_true] at hw
      refine .inr (.inr ⟨e, rest, rfl, hw.1, fun hj => hw.2 (Option.isSome_iff_ne_none.2 hj), rfl⟩)

/-- While the host waits, a step is a quiet step. -/
theorem step_waiting (s : State) (e : Event) (rest : List Event) (hp : s.program = e :: rest)
    (h : (s.busy = true ∧ e.waitsForReady = true) ∨ (s.job ≠ none ∧ e.waitsForOperation = true)) :
    step s = quietStep s := by
  have hs : step s = eventStep e rest s := by rw [step, hp]
  rw [hs, eventStep, if_pos]
  simpa [Bool.or_eq_true, Bool.and_eq_true, Option.isSome_iff_ne_none] using h

end Sys2Proof.Machine
end

