-- ==== Sys2Proof/Laws/Outcome.lean ====
section
/-!
SUPPORT. Runs: how steps and replies add up, and what one step does to the list of results.
-/

namespace Sys2Proof.Machine

/-! ### Runs add up -/

@[simp] theorem steps_zero (s : State) : steps 0 s = .next s := rfl

theorem steps_succ {s t : State} (n : Nat) (h : step s = .next t) : steps (n + 1) s = steps n t := by
  rw [steps, h]

@[simp] theorem repliesOf_zero (s : State) : repliesOf 0 s = [] := rfl

theorem repliesOf_succ {s t : State} (n : Nat) (h : step s = .next t) :
    repliesOf (n + 1) s = stepReplies s t ++ repliesOf n t := by
  rw [repliesOf, h]

/-- A run of `m + n` steps is one of `m` steps and then one of `n`. -/
theorem steps_add {s t : State} (m n : Nat) (h : steps m s = .next t) : steps (m + n) s = steps n t := by
  induction m generalizing s with
  | zero => cases h; rw [Nat.zero_add]
  | succ m ih =>
    match hs : step s with
    | .next u =>
      rw [steps_succ m hs] at h
      rw [show m + 1 + n = m + n + 1 by omega, steps_succ _ hs, ih h]
    | .fault e => rw [steps, hs] at h; cases h
    | .refused e => rw [steps, hs] at h; cases h

/-- Its replies are those of the two, one after the other. -/
theorem repliesOf_add {s t : State} (m n : Nat) (h : steps m s = .next t) :
    repliesOf (m + n) s = repliesOf m s ++ repliesOf n t := by
  induction m generalizing s with
  | zero => cases h; rw [Nat.zero_add, repliesOf_zero, List.nil_append]
  | succ m ih =>
    match hs : step s with
    | .next u =>
      rw [steps_succ m hs] at h
      rw [show m + 1 + n = m + n + 1 by omega, repliesOf_succ _ hs, repliesOf_succ _ hs, ih h, List.append_assoc]
    | .fault e => rw [steps, hs] at h; cases h
    | .refused e => rw [steps, hs] at h; cases h

/-! ### What a step does to the results -/

/-- A turn adds no result or one. -/
theorem sequencerTurn_results {s t : State} (h : sequencerTurn s = .next t) :
    t.results = s.results ∨ ∃ r, t.results = s.results ++ [r] := by
  obtain ⟨_, h'⟩ | ⟨j, u, _, hu, h'⟩ := sequencerTurn_cases s <;> rw [h'] at h <;> cases h
  · exact .inl rfl
  · have hr := (exec_host_frame hu).2.1
    obtain ⟨_, _, h''⟩ | ⟨_, _, h''⟩ | ⟨_, h''⟩ := takeResponse_cases j u <;> rw [h'']
    · exact .inl hr
    · exact .inr ⟨_, by rw [endJob_results, hr]⟩
    · exact .inr ⟨_, by rw [endJob_results, hr]⟩

/-- So does the start of ENCBUF. -/
theorem startEncbuf_results (bytes : List Byte) (ok : Bool) (s : State) :
    (startEncbuf bytes ok s).results = s.results ∨ ∃ r, (startEncbuf bytes ok s).results = s.results ++ [r] := by
  match h : encbufCheck s.kvalid ok with
  | none => exact .inl (by rw [startEncbuf_job _ _ _ h, startJob_results])
  | some e => exact .inr ⟨_, by rw [startEncbuf_error _ _ _ e h, endJob_results, endPulse_results]⟩

/-- So does the start of DECBUF. -/
theorem startDecbuf_results (bytes : List Byte) (ok : Bool) (s : State) :
    (startDecbuf bytes ok s).results = s.results ∨ ∃ r, (startDecbuf bytes ok s).results = s.results ++ [r] := by
  match h : decbufCheck bytes s.kvalid ok with
  | none => exact .inl (by rw [startDecbuf_job _ _ _ h, startJob_results])
  | some e => exact .inr ⟨_, by rw [startDecbuf_error _ _ _ e h, endJob_results, endPulse_results]⟩

/-- Acceptance of a command leaves the host's data alone. -/
theorem accept_host_frame (i : Instr) (s : State) :
    (accept i s).job = s.job ∧ (accept i s).results = s.results ∧ (accept i s).program = s.program := by
  cases i <;> simp only [accept] <;> (try split) <;> simp

/-- So does a run of stages. -/
theorem runStages_host_frame (n : Nat) (s : State) :
    (runStages n s).job = s.job ∧ (runStages n s).results = s.results ∧ (runStages n s).program = s.program :=
  runStages_induction (P := fun t => t.job = s.job ∧ t.results = s.results ∧ t.program = s.program)
    (fun t _ ht => by
      obtain ⟨h1, h2, h3⟩ := stage_host_frame t
      rw [h1, h2, h3]; exact ht) n s ⟨rfl, rfl, rfl⟩

/-- So does a clock edge. -/
theorem clockEdge_host_frame (pins : Pins) (n : Nat) (s : State) :
    (clockEdge pins n s).job = s.job ∧ (clockEdge pins n s).results = s.results ∧
    (clockEdge pins n s).program = s.program := by
  obtain ⟨_, h⟩ | ⟨_, _, h⟩ | ⟨_, _, _, h⟩ | ⟨_, _, _, h⟩ := clockEdge_cases pins n s <;> rw [h]
  · simp
  · exact runStages_host_frame n s
  · obtain ⟨h1, h2, h3⟩ := runStages_host_frame n (accept (decode pins.cmd) s)
    rw [h1, h2, h3]
    exact accept_host_frame _ _
  · simp

/-- What an event adds to the results: nothing or one result. -/
theorem runEvent_results {e : Event} {s t : State} (h : runEvent e s = .next t) :
    t.results = s.results ∨ ∃ r, t.results = s.results ++ [r] := by
  cases e with
  | command w => exact .inl (exec_host_frame h).2.1
  | reset => cases h; exact .inl (resetCore_results s)
  | encbuf bytes ok => cases h; exact startEncbuf_results bytes ok s
  | decbuf bytes ok => cases h; exact startDecbuf_results bytes ok s
  | sequencerTurn => exact sequencerTurn_results h
  | edge pins n => cases h; exact .inl (clockEdge_host_frame pins n s).2.1

/-- A step adds no result or one, and takes none away (R149, R177). -/
theorem step_results {s t : State} (h : step s = .next t) :
    t.results = s.results ∨ ∃ r, t.results = s.results ++ [r] := by
  obtain ⟨_, h'⟩ | ⟨_, _, h'⟩ | ⟨e, rest, _, _, _, h'⟩ := step_cases s <;> rw [h'] at h
  · cases h; exact .inl (stage_host_frame s).2.1
  · exact sequencerTurn_results h
  · exact runEvent_results (s := { s with program := rest }) h

end Sys2Proof.Machine
end

