-- ==== Sys2Proof/Laws/PerInstr.lean ====
section
/-!
SUPPORT. The statement that is made of every command as syntax, one lemma per constructor: its word has the opcode and
the argument of R49 and R51, belongs to its own row of the opcode table, and sets no bit that the command ignores.
-/

namespace Sys2Proof.Laws.EncodingFollowsRow

/-- What the word of a command is (R48, R49, R51, R55). -/
def Statement (i : Instr) : Prop :=
  i.wf = true ∧ opField (encode i) = opcodeOf i ∧ argField (encode i) = argumentOf i ∧
  clearIgnored (encode i) = encode i ∧
  ∃ row ∈ opcodeTable, row.mnemonic = mnemonicOf i ∧ row.covers (encode i) = true

/-- A mask on the opcode bits alone keeps the opcode and nothing else. -/
theorem commandWord_and_opcodeMask (op : BitVec 3) (arg : BitVec 64) :
    commandWord op arg &&& 0x70000000000000000#67 = commandWord op 0 := by
  rw [show (0x70000000000000000#67 : CommandWord) = commandWord 0b111#3 0 from rfl, commandWord_and]
  congr 1
  · revert op; decide
  · simp

/-- The row of the opcode table that has the given opcode covers its words. -/
theorem covers_of_pattern {row : OpcodeRow} {op : BitVec 3} (arg : BitVec 64)
    (hm : row.mask = 0x70000000000000000#67) (hp : row.pattern = commandWord op 0) :
    row.covers (commandWord op arg) = true := by
  rw [OpcodeRow.covers, hm, hp, commandWord_and_opcodeMask]
  simp

/-- A command that ignores no argument bit. -/
theorem clearIgnored_full (op : BitVec 3) (arg : BitVec 64) (h : op ∈ [0b001#3, 0b010#3, 0b011#3]) :
    clearIgnored (commandWord op arg) = commandWord op arg := by
  rw [clearIgnored, opField_commandWord]
  simp only [List.mem_cons, List.not_mem_nil, or_false] at h
  rcases h with rfl | rfl | rfl <;> rfl

theorem loadkey (key : Key) : Statement (.loadkey key) :=
  ⟨by simp [Instr.wf, Line.ofInstr, Line.wf, key.isLt], opField_commandWord _ _, argField_commandWord _ _,
    clearIgnored_full _ _ (by simp [opcodeOf]), _, .head _, rfl,
    covers_of_pattern (op := 0b001#3) _ rfl rfl⟩

theorem encrypt (block : Block) : Statement (.encrypt block) :=
  ⟨by simp [Instr.wf, Line.ofInstr, Line.wf, block.isLt], opField_commandWord _ _, argField_commandWord _ _,
    clearIgnored_full _ _ (by simp [opcodeOf]), _, .tail _ (.head _), rfl,
    covers_of_pattern (op := 0b010#3) _ rfl rfl⟩

theorem decrypt (block : Block) : Statement (.decrypt block) :=
  ⟨by simp [Instr.wf, Line.ofInstr, Line.wf, block.isLt], opField_commandWord _ _, argField_commandWord _ _,
    clearIgnored_full _ _ (by simp [opcodeOf]), _, .tail _ (.tail _ (.head _)), rfl,
    covers_of_pattern (op := 0b011#3) _ rfl rfl⟩

theorem rdsk (idx : SubkeyIndex) : Statement (.rdsk idx) :=
  ⟨by simp [Instr.wf, Line.ofInstr, Line.wf, idx.isLt], opField_commandWord _ _, argField_commandWord _ _,
    by revert idx; decide, _, .tail _ (.tail _ (.tail _ (.head _))), rfl,
    covers_of_pattern (op := 0b100#3) _ rfl rfl⟩

theorem reserved0 : Statement .reserved0 := by unfold Statement; decide

theorem reserved5 : Statement .reserved5 := by unfold Statement; decide

theorem reserved6 : Statement .reserved6 := by unfold Statement; decide

theorem reserved7 : Statement .reserved7 := by unfold Statement; decide

end Sys2Proof.Laws.EncodingFollowsRow
end

