-- ==== Sys2Proof/Tests/Slice0.lean ====
section
/-!
SUPPORT. Tests: values that the spec prints, words written out from its encoding, ill-formed terms refused, and for each
statement of `Certificates/Slice0/Obligations.lean` that has hypotheses a named witness that meets them. Every expected
value stands in the spec at the place the comment names.
-/

namespace Sys2Proof.Tests

open Sys2Proof.Machine

/-! ### Helpers -/

/-- The key of the known-answer test (R128). -/
def katKey : Key := 0x133457799BBCDFF1#64

/-- The schedule of that key as R113 prints it. -/
def katSchedule : Schedule := ⟨#[0x1B02EFFC7072#48, 0x79AED9DBC9E5#48, 0x55FC8A42CF99#48, 0x72ADD6DB351D#48,
  0x7CEC07EB53A8#48, 0x63A53E507B2F#48, 0xEC84B7F618BC#48, 0xF78A3AC13BFB#48, 0xE0DBEBEDE781#48, 0xB1F347BA464F#48,
  0x215FD3DED386#48, 0x7571F59467E9#48, 0x97C5D1FABA41#48, 0x5F43B7F2E73A#48, 0xBF918D3D3F0A#48,
  0xCB3D8B0E17F5#48], rfl⟩

/-- The machine after reset with that schedule loaded. -/
def loaded : State := { State.reset with ks := katSchedule, kvalid := true }

/-- A field of the state after one step; `none` when the step does not go on. -/
def afterStep {α : Type} (s : State) (field : State → α) : Option α :=
  match step s with
  | .next t => some (field t)
  | .fault _ => none
  | .refused _ => none

/-- The response and `KVALID` after one step that runs the given word. -/
def afterWord (s : State) (w : Nat) : Option (ResponseWord × Bool) :=
  afterStep (s.withFetchWord 67 w) fun t => (t.rsp, t.kvalid)

/-! ### Words written out from R48 and R49 decode to their commands -/

theorem test_decode_loadkey_bits :
    decode 0b0010001001100110100010101110111100110011011101111001101111111110001#67 = .loadkey katKey := by decide

theorem test_decode_encrypt_bits :
    decode 0b0100000000100100011010001010110011110001001101010111100110111101111#67 =
      .encrypt 0x0123456789ABCDEF#64 := by decide

theorem test_decode_decrypt_bits :
    decode 0b0111000010111101000000100110101010000001111000010101011010000000101#67 =
      .decrypt 0x85E813540F0AB405#64 := by decide

theorem test_decode_rdsk_bits :
    decode 0b1000000000000000000000000000000000000000000000000000000000000000011#67 = .rdsk 3 := by decide

/-- Bits 63:4 of the argument of RDSK are ignored (R55). -/
theorem test_decode_rdsk_ignores_high_bits : decode 0x4FFFFFFFFFFFFFFF9#67 = .rdsk 9 := by decide

theorem test_decode_reserved : decode 0x00000000000000001#67 = .reserved0 ∧ decode 0x50000000000000001#67 = .reserved5 ∧
    decode 0x60000000000000001#67 = .reserved6 ∧ decode 0x70000000000000001#67 = .reserved7 := by decide

/-- A number of 68 bits is no command word (R56). -/
theorem test_decode_too_wide : decodeNat (2 ^ 67) = .error .wordTooWide := by decide

/-- A stored command takes nine bytes (log entry 8). -/
theorem test_decode_bytes : decodeBytes [0xEF, 0xCD, 0xAB, 0x89, 0x67, 0x45, 0x23, 0x01, 0x02] =
    .ok (.encrypt 0x0123456789ABCDEF#64) ∧ decodeBytes [0x01, 0x02] = .error .notNineBytes ∧
    decodeBytes [0, 0, 0, 0, 0, 0, 0, 0, 0x08] = .error .wordTooWide := by decide

/-! ### Ill-formed lines are refused, well-formed ones assemble (R57) -/

theorem test_wf_loadkey : (Line.loadkey (2 ^ 64)).wf = false ∧ assemble (.loadkey (2 ^ 64)) = none := by decide
theorem test_wf_encrypt : (Line.encrypt (2 ^ 64)).wf = false ∧ assemble (.encrypt (2 ^ 64)) = none := by decide
theorem test_wf_decrypt : (Line.decrypt (2 ^ 64)).wf = false ∧ assemble (.decrypt (2 ^ 64)) = none := by decide
theorem test_wf_rdsk : (Line.rdsk 16).wf = false ∧ assemble (.rdsk 16) = none := by decide
theorem test_wf_cmd : (Line.cmd (2 ^ 67)).wf = false ∧ assemble (.cmd (2 ^ 67)) = none := by decide
theorem test_reset_is_no_word : assemble .reset = none := by decide
theorem test_assemble_encrypt : assemble (.encrypt 0x0123456789ABCDEF) = some 0x20123456789ABCDEF#67 := by decide
theorem test_assemble_rdsk : assemble (.rdsk 15) = some 0x4000000000000000F#67 := by decide

/-- The example of R57: 17 digits of a command word and of a response word. -/
theorem test_print : printCommand 0x20123456789ABCDEF#67 =
      ['0', 'x', '2', '0', '1', '2', '3', '4', '5', '6', '7', '8', '9', 'A', 'B', 'C', 'D', 'E', 'F'] ∧
    printResponse 0x085E813540F0AB405#66 =
      ['0', 'x', '0', '8', '5', 'E', '8', '1', '3', '5', '4', '0', 'F', '0', 'A', 'B', '4', '0', '5'] := by decide

/-! ### The functions of the cipher on the values that the spec prints -/

/-- R80 and R85. -/
theorem test_permute : permute tableIP 0x0123456789ABCDEF#64 = 0xCC00CCFFF0AAF0AA#64 ∧
    permute tableFP 0xCC00CCFFF0AAF0AA#64 = 0x0123456789ABCDEF#64 ∧
    permute tableE 0xF0AAF0AA#32 = 0x7A15557A1555#48 ∧ permute tableP 0x5C82B597#32 = 0x234AA9BB#32 ∧
    permute tablePC1 katKey = 0xF0CCAAF556678F#56 ∧ permute tablePC2 0xE19955FAACCF1E#56 = 0x1B02EFFC7072#48 ∧
    permute tableIP 1#64 = 0x0000008000000000#64 ∧ permute tablePC1 0x8000000000000000#64 = 0x01000000000000#56 := by
  decide +kernel

/-- R93 and R94. -/
theorem test_sbox : sbox 0x000000000000#48 = 0xEFA72C4D#32 ∧ sbox 0xFFFFFFFFFFFF#48 = 0xD9CE3DCB#32 ∧
    sbox 0x800000000000#48 = 0x4FA72C4D#32 ∧ sbox 0x040000000000#48 = 0x0FA72C4D#32 ∧
    sbox 0x6117BA866527#48 = 0x5C82B597#32 := by decide +kernel

/-- R98 and R99. -/
theorem test_roundFunction : roundFunction 0xF0AAF0AA#32 0x1B02EFFC7072#48 = 0x234AA9BB#32 ∧
    roundFunction 0#32 0#48 = 0xD8D8DBBC#32 ∧ roundFunction 0xFFFFFFFF#32 0#48 = 0x38DBF9CB#32 := by decide +kernel

/-- R111. -/
theorem test_rotl28 : rotl28 0x8000001#28 1 = 0x0000003#28 ∧ rotl28 0x8000001#28 2 = 0x0000006#28 ∧
    rotl28 0xC000000#28 2 = 0x0000003#28 ∧ rotl28 0x4000000#28 2 = 0x0000001#28 := by decide

/-- R113: all sixteen subkeys. -/
theorem test_schedule : schedule katKey = katSchedule := by decide +kernel

/-- R112: a weak key, and a key of which only parity bits are set. -/
theorem test_schedule_weak : schedule 0x1F1F1F1F0E0E0E0E#64 = Vector.replicate 16 0x000000FFFFFF#48 ∧
    schedule 0x0101010101010101#64 = Vector.replicate 16 0#48 := by decide +kernel

/-- R127, two rows: another key, and the direction that matters. -/
theorem test_crypt : crypt 0x4E6F772069732074#64 (schedule 0x0123456789ABCDEF#64) false = 0x3FA40E8A984D4815#64 ∧
    crypt 0x0123456789ABCDEF#64 katSchedule true = 0xEE0F7C12E0B09338#64 := by decide +kernel

/-- R128: the halves after the first and after the last round. -/
theorem test_rounds : cryptRounds katSchedule false 1 (initialHalves 0x0123456789ABCDEF#64) =
      (0xF0AAF0AA#32, 0xEF4A6544#32) ∧
    cryptRounds katSchedule false 16 (initialHalves 0x0123456789ABCDEF#64) = (0x43423234#32, 0x0A4CD995#32) := by
  decide +kernel

/-! ### One step for each command, with the programs P1 and P2 of `95_test_vectors.md` -/

/-- P1, row 2: LOADKEY, first after reset. -/
theorem test_loadkey : afterWord State.reset 0x1133457799BBCDFF1 = some (0x00000000000000000#66, true) := by
  decide +kernel

theorem test_loadkey_store : afterStep (State.reset.withFetchWord 67 0x1133457799BBCDFF1) State.ks = some katSchedule := by
  decide +kernel

/-- P1, row 3, and P2, row 2: ENCRYPT with and without a schedule. -/
theorem test_encrypt : afterWord loaded 0x20123456789ABCDEF = some (0x085E813540F0AB405#66, true) := by decide +kernel
theorem test_encrypt_nokey : afterWord State.reset 0x20123456789ABCDEF = some (0x10000000000000000#66, false) := by
  decide +kernel

/-- P1, row 4, and P2, row 12: DECRYPT with and without a schedule. -/
theorem test_decrypt : afterWord loaded 0x385E813540F0AB405 = some (0x00123456789ABCDEF#66, true) := by decide +kernel
theorem test_decrypt_nokey : afterWord State.reset 0x38CA64DE9C1B123A7 = some (0x10000000000000000#66, false) := by
  decide +kernel

/-- P1, row 6, and P2, row 3: RDSK with and without a schedule. -/
theorem test_rdsk : afterWord loaded 0x4000000000000000F = some (0x00000CB3D8B0E17F5#66, true) := by decide +kernel
theorem test_rdsk_nokey : afterWord State.reset 0x40000000000000003 = some (0x10000000000000000#66, false) := by
  decide +kernel

/-- P2, rows 4, 5 and 7: reserved opcodes, with and without a schedule (R149). -/
theorem test_reserved0 : afterWord State.reset 0 = some (0x20000000000000000#66, false) := by decide +kernel
theorem test_reserved5 : afterWord State.reset 0x50123456789ABCDEF = some (0x20000000000000000#66, false) := by
  decide +kernel
theorem test_reserved6 : afterWord loaded 0x60000000000000000 = some (0x20000000000000000#66, true) := by
  decide +kernel
theorem test_reserved7 : afterWord loaded 0x7FFFFFFFFFFFFFFFF = some (0x20000000000000000#66, true) := by
  decide +kernel

/-! ### Clock edges (R45, R164, R181) -/

/-- A core that does one stage a cycle answers a LOADKEY after 17 of them, stage 0 at acceptance: sixteen stages later
`RSP_VALID` is 1, one stage earlier it is not, and `KVALID` is 0 in between (R106, R108, R181). -/
theorem test_edge_loadkey : (clockEdge ⟨false, true, 0x1133457799BBCDFF1#67⟩ 16 loaded).rspValid = true ∧
    (clockEdge ⟨false, true, 0x1133457799BBCDFF1#67⟩ 15 loaded).rspValid = false ∧
    (clockEdge ⟨false, true, 0x1133457799BBCDFF1#67⟩ 15 loaded).kvalid = false := by decide +kernel

/-- The same for a block command: 18 stages, stage 0 at acceptance (R121, R123, R181). -/
theorem test_edge_encrypt : (outputs (clockEdge ⟨false, true, 0x20123456789ABCDEF#67⟩ 17 loaded)).rsp =
      some 0x085E813540F0AB405#66 ∧
    (outputs (clockEdge ⟨false, true, 0x20123456789ABCDEF#67⟩ 16 loaded)).rsp = none := by decide +kernel

/-- Reset wins over a command at the same edge (R164). -/
theorem test_edge_reset : (clockEdge ⟨true, true, 0x1133457799BBCDFF1#67⟩ 20 loaded).kvalid = false ∧
    (clockEdge ⟨true, true, 0x1133457799BBCDFF1#67⟩ 20 loaded).rspValid = false := by decide

/-! ### The buffer codec (R130, R144, and P5 of `95_test_vectors.md`) -/

theorem test_padlen : [0, 1, 5, 7, 8, 9, 16, 17].map padlen = [8, 8, 8, 8, 8, 16, 16, 24] := by decide

/-- R144: the nine-byte input, and the empty one. -/
theorem test_encbuf : encbuf true katSchedule [0x01, 0x23, 0x45, 0x67, 0x89, 0xAB, 0xCD, 0xEF, 0x01] true =
      .ok [0x85, 0xE8, 0x13, 0x54, 0x0F, 0x0A, 0xB4, 0x05, 0x38, 0xD4, 0x73, 0xA1, 0x97, 0x48, 0x34, 0x0F] 16 ∧
    encbuf true katSchedule [] true = .ok [0x94, 0x8A, 0x43, 0xF9, 0x8A, 0x83, 0x4F, 0x7E] 8 := by decide +kernel

/-- R144: the padding stays; and the errors. -/
theorem test_decbuf : decbuf true katSchedule [0xD4, 0x3F, 0x40, 0x84, 0x21, 0xDD, 0xFE, 0x1E] true =
      .ok [0x48, 0x65, 0x6C, 0x6C, 0x6F, 0x00, 0x00, 0x00] 8 ∧
    decbuf true katSchedule [] true = .error .invalidLengthZero ∧
    decbuf true katSchedule [0x85, 0xE8, 0x13, 0x54, 0x0F] true = .error .invalidLengthNotMultipleOf8 := by
  decide +kernel

/-- P5, row 8: one turn of the sequencer after ENCBUF of five bytes gives the result. -/
theorem test_sequencer : (match sequencerTurns 1 (startEncbuf [0x48, 0x65, 0x6C, 0x6C, 0x6F] true loaded) with
    | .next t => t.results
    | .fault _ => []
    | .refused _ => []) = [.ok [0xD4, 0x3F, 0x40, 0x84, 0x21, 0xDD, 0xFE, 0x1E] 8] := by decide +kernel

/-- P5, row 1, as a program of its own: its outcome is the error, with no schedule loaded (R177). -/
theorem test_outcome_encbuf_nokey :
    outcomeOf 1 { State.reset with program := [.encbuf [0x48, 0x65, 0x6C, 0x6C, 0x6F] true] } =
      some { replies := [.result (.error .invalidParameterNoKey)], kvalid := false, ks := none } := by decide

/-- P1, row 2, as a program of its own: its outcome is the response and the schedule of R113. -/
theorem test_outcome_loadkey : outcomeOf 1 { State.reset with program := [.command 0x1133457799BBCDFF1#67] } =
      some { replies := [.response 0x00000000000000000#66], kvalid := true, ks := some katSchedule } := by decide +kernel

/-- The responses as R57 writes them. -/
theorem test_responseText : responseText 0x085E813540F0AB405#66 = "OK 0x85E813540F0AB405".toList ∧
    responseText 0x10000000000000000#66 = "ERR_NOKEY".toList ∧
    responseText 0x20000000000000000#66 = "ERR_ILLOP".toList := by decide +kernel

/-! ### Witnesses: states and operands that meet the hypotheses of the statements, clause by clause -/

/-- A LOADKEY in flight, accepted in the loaded machine. -/
def loading : State := accept (.loadkey katKey) loaded

/-- An RDSK in flight: its response is settled and still to be given. -/
def answering : State := answerStart .ok (zext64 0x1B02EFFC7072#48) loaded

/-- An ENCBUF of two blocks in progress. -/
def twoBlocks : State := startEncbuf [1, 2, 3, 4, 5, 6, 7, 8, 9] true loaded

/-- A DECBUF of one block in progress, so at its last block. -/
def oneBlock : State := startDecbuf [1, 2, 3, 4, 5, 6, 7, 8] true loaded

theorem witness_IgnoredArgumentBits :
    (opField 0x40000000000000013#67 = 0b100#3 ∧ opField 0x4FFFFFFFFFFFFFFF3#67 = 0b100#3 ∧
      idxField 0x40000000000000013#67 = idxField 0x4FFFFFFFFFFFFFFF3#67) ∧
    (opField 0x00000000000000000#67 ∈ [0b000#3, 0b101#3, 0b110#3, 0b111#3] ∧
      opField 0x0FFFFFFFFFFFFFFFF#67 = opField 0x00000000000000000#67) ∧
    (opField 0x7FFFFFFFFFFFFFFFF#67 ∈ [0b000#3, 0b101#3, 0b110#3, 0b111#3] ∧
      opField 0x70000000000000000#67 = opField 0x7FFFFFFFFFFFFFFFF#67) ∧
    (opField 0x30000000000000000#67 ∈ [0b001#3, 0b010#3, 0b011#3] ∧
      decode 0x30000000000000000#67 = decode 0x30000000000000000#67) := by decide

theorem witness_WordsAndLinesStandForCommands : 67 ≤ 67 ∧ 67 ≤ 72 := by decide

theorem witness_StepRunsTheDecodedCommand :
    ({ loaded with program := [.command 0x20123456789ABCDEF#67, .reset] } : State).program =
      .command 0x20123456789ABCDEF#67 :: [.reset] ∧
    ({ loaded with program := [.command 0x20123456789ABCDEF#67, .reset] } : State).busy = false ∧
    ({ loaded with program := [.command 0x20123456789ABCDEF#67, .reset] } : State).job = none := by decide

theorem witness_StepRunsTheFetchedWord : 67 ≤ 67 ∧ 67 ≤ 72 := by decide

/-- Each clause, in its order; the second has a reset next while a command and a buffer operation are both in progress. -/
theorem witness_HostWaitsForWhatIsInProgress :
    (({ loading with program := [.sequencerTurn] } : State).program = .sequencerTurn :: [] ∧ loading.busy = true ∧
      Event.sequencerTurn.waitsForReady = true ∧ (Event.command 0).waitsForReady = true) ∧
    (({ twoBlocks with busy := true, program := [.reset] } : State).program = .reset :: [] ∧
      ({ twoBlocks with busy := true } : State).busy = true ∧ ({ twoBlocks with busy := true } : State).job ≠ none ∧
      Event.reset.waitsForOperation = true) ∧
    (({ twoBlocks with program := [.reset] } : State).program = .reset :: [] ∧ twoBlocks.busy = false ∧
      twoBlocks.job ≠ none ∧ Event.reset.waitsForOperation = true ∧ (Event.command 0).waitsForOperation = true) ∧
    (loading.program = [] ∧ loading.busy = true) ∧
    (twoBlocks.program = [] ∧ twoBlocks.busy = false ∧ twoBlocks.job ≠ none) ∧
    (loaded.program = [] ∧ loaded.busy = false ∧ loaded.job = none) := by decide

theorem witness_StepTakesTheOtherEvents :
    (({ loading with program := [.reset] } : State).program = .reset :: [] ∧ loading.job = none) ∧
    ({ loading with program := [.edge ⟨false, true, 0⟩ 1] } : State).program = .edge ⟨false, true, 0⟩ 1 :: [] ∧
    (({ loaded with program := [.encbuf [] true] } : State).program = .encbuf [] true :: [] ∧
      loaded.busy = false ∧ loaded.job = none) ∧
    (({ loaded with program := [.decbuf [1] false] } : State).program = .decbuf [1] false :: [] ∧
      loaded.busy = false ∧ loaded.job = none) ∧
    (({ twoBlocks with program := [.sequencerTurn] } : State).program = .sequencerTurn :: [] ∧
      twoBlocks.busy = false) := by decide

/-- The hypothesis of the statements about ENCRYPT, DECRYPT, RDSK and the sequencer with a schedule loaded. -/
theorem witness_schedule_loaded : loaded.kvalid = true ∧ loading.kvalid = false := by decide

theorem witness_ReservedOpcodesAnswerIllegal :
    Instr.reserved0 ∈ [Instr.reserved0, .reserved5, .reserved6, .reserved7] ∧
    Instr.reserved7 ∈ [Instr.reserved0, .reserved5, .reserved6, .reserved7] ∧
    opField 0x00000000000000000#67 ∈ [0b000#3, 0b101#3, 0b110#3, 0b111#3] ∧
    opField 0x7FFFFFFFFFFFFFFFF#67 ∈ [0b000#3, 0b101#3, 0b110#3, 0b111#3] := by decide

theorem witness_NoScheduleAnswersNoKey : State.reset.kvalid = false ∧
    (∃ block, Instr.encrypt 0#64 = .encrypt block) ∧ (∃ block, Instr.decrypt 0#64 = .decrypt block) ∧
    (∃ idx, Instr.rdsk 15#4 = .rdsk idx) ∧
    (∃ t, exec (.encrypt 0#64) State.reset = .next t ∧ responseStatus t.rsp = 0b01#2) :=
  ⟨rfl, ⟨_, rfl⟩, ⟨_, rfl⟩, ⟨_, rfl⟩, _, exec_encrypt_of_not_kvalid _ _ rfl, by
    rw [reject_rsp, responseStatus_responseWord]; rfl⟩

theorem witness_EveryResponseIsAllowed : ∃ t, exec (.encrypt 0#64) loaded = .next t :=
  ⟨_, exec_encrypt_of_kvalid _ _ rfl⟩

theorem witness_OnlyLoadkeyAndResetChangeTheStore :
    (∃ t, exec (.rdsk 0) loaded = .next t) ∧ (∀ key, Instr.rdsk 0 ≠ .loadkey key) ∧
    (∃ t, step { loaded with program := [.reset] } = .next t ∧ t.kvalid ≠ loaded.kvalid) ∧
    (∃ t, step (State.reset.withFetchWord 67 0x10000000000000000) = .next t ∧ t.kvalid ≠ State.reset.kvalid) :=
  ⟨⟨_, exec_rdsk_of_kvalid _ _ rfl⟩, by simp, ⟨_, rfl, by decide⟩, ⟨_, rfl, by decide⟩⟩

theorem witness_OnlyResetClearsKvalid :
    (∃ t, exec (.loadkey 0#64) loaded = .next t) ∧ loaded.kvalid = true ∧
    (∃ t, step { loaded with program := [.reset] } = .next t ∧ t.kvalid = false) ∧
    (∃ t, step { loaded with program := [.edge ⟨false, true, 0x10000000000000000#67⟩ 3] } = .next t ∧
      t.kvalid = false) :=
  ⟨⟨_, rfl⟩, rfl, ⟨_, rfl, rfl⟩, ⟨_, rfl, by decide +kernel⟩⟩

theorem witness_ResponseDependsOnlyOnTheStore :
    loaded.kvalid = ({ loaded with l := 1, rsp := 5 } : State).kvalid ∧
    (loaded.kvalid = true → loaded.ks = ({ loaded with l := 1, rsp := 5 } : State).ks) ∧
    (∃ t, exec (.rdsk 0) loaded = .next t) ∧ (∃ t, exec (.rdsk 0) { loaded with l := 1, rsp := 5 } = .next t) ∧
    (∃ t u, exec (.encrypt 7) loaded = .next t ∧ exec (.encrypt 7) t = .next u) :=
  ⟨rfl, fun _ => rfl, ⟨_, exec_rdsk_of_kvalid _ _ rfl⟩, ⟨_, exec_rdsk_of_kvalid _ _ rfl⟩,
    _, _, exec_encrypt_of_kvalid _ _ rfl, exec_encrypt_of_kvalid _ (blockDone _ { loaded with flight := .block }) rfl⟩

theorem witness_RepeatedCommandsAgree : ∃ t u, exec (.loadkey katKey) State.reset = .next t ∧
    exec (.loadkey katKey) t = .next u := ⟨_, _, rfl, rfl⟩

theorem witness_PermuteSelectsSourceBits : 1 ≤ 1 ∧ 1 ≤ 48 ∧ 1 ≤ 48 ∧ 48 ≤ 48 := by decide

/-- Two keys that agree at every position of PC1 and differ in a parity bit. -/
theorem witness_PermuteLaws : (∀ p ∈ tablePC1.positions, msb (0#64) p = msb (1#64) p) ∧ (0#64) ≠ (1#64) := by decide

theorem witness_FinalPermutationInvertsInitial : 1 ≤ 1 ∧ 1 ≤ 64 ∧ 64 ≤ 64 := by decide

theorem witness_SboxLooksUpEachGroup :
    ([tableS1, tableS2, tableS3, tableS4, tableS5, tableS6, tableS7, tableS8] : List SBox)[1 - 1]? = some tableS1 ∧
    ([tableS1, tableS2, tableS3, tableS4, tableS5, tableS6, tableS7, tableS8] : List SBox)[8 - 1]? = some tableS8 ∧
    1 ≤ 1 ∧ 1 ≤ 8 := ⟨rfl, rfl, by decide, by decide⟩

theorem witness_ScheduleClosedForm : 0 ≤ 16 ∧ 16 ≤ 16 := by decide

theorem witness_ScheduleIgnoresParity : 0x0101010101010101#64 &&& 0xFEFEFEFEFEFEFEFE#64 = 0 ∧
    (∀ p : Fin 65, 1 ≤ p.val → p.val % 8 ≠ 0 → msb (0#64) p = msb (0x0101010101010101#64) p) := by decide

/-- The schedule of the all-zero key (R112). -/
theorem witness_EqualSubkeysMakeOneDirection :
    (∀ i : SubkeyIndex, subkeyAt (Vector.replicate 16 0#48) i = 0#48) ∧
    (∃ t, exec (.encrypt 0) { loaded with ks := Vector.replicate 16 0#48 } = .next t) ∧
    (∃ u, exec (.decrypt 0) { loaded with ks := Vector.replicate 16 0#48 } = .next u) :=
  ⟨by decide, ⟨_, exec_encrypt_of_kvalid _ _ rfl⟩, ⟨_, exec_decrypt_of_kvalid _ _ rfl⟩⟩

/-- A key load at its first round, at the last round before the end, and at the end. -/
theorem witness_StagesOfAKeyLoad : (loading.busy = true ∧ loading.flight = .keyLoad ∧
      loading.stg.toNat = (0 : SubkeyIndex).toNat + 1 ∧ (0 : SubkeyIndex) ≠ 15) ∧
    (({ loading with stg := 15 } : State).stg.toNat = (14 : SubkeyIndex).toNat + 1 ∧ (14 : SubkeyIndex) ≠ 15) ∧
    ({ loading with stg := 16 } : State).stg = 16 := by decide

/-- Both block commands, with and without a schedule, and the first and the last round. -/
theorem witness_StagesOfABlockCommand : (0x20123456789ABCDEF#67).extractLsb' 65 2 = 0b01#2 ∧
    (0x385E813540F0AB405#67).extractLsb' 65 2 = 0b01#2 ∧ loaded.kvalid = true ∧ State.reset.kvalid = false ∧
    (accept (.decrypt 0) loaded).busy = true ∧ (accept (.decrypt 0) loaded).flight = .block ∧
    (accept (.decrypt 0) loaded).stg.toNat = (0 : SubkeyIndex).toNat + 1 ∧
    ({ accept (.decrypt 0) loaded with stg := 16 } : State).stg.toNat = (15 : SubkeyIndex).toNat + 1 := by decide

theorem witness_BlockStagesHoldTheRounds : 0 ≤ 16 ∧ 16 ≤ 16 := by decide

theorem witness_BusyCoreOnlyDoesStages : loading.busy = true ∧
    (∀ e ∈ [((⟨false, true, 0⟩ : Pins), 3)] ++ [(⟨false, false, 0⟩, 20)], e.1.rst = false) ∧
    (runStages ([((⟨false, true, 0⟩ : Pins), 3)].map Prod.snd).sum loading).busy = true := by
  refine ⟨rfl, by decide, by decide +kernel⟩

/-- An RDSK in flight is a coherent busy state. -/
theorem witness_AcceptedCommandIsAnswered : Coherent answering ∧ answering.busy = true := by
  refine ⟨⟨fun _ => rfl, ?_, ?_, fun _ => ⟨katKey, test_schedule.symm⟩, ?_, ?_, ?_, ?_⟩, rfl⟩
  · intro h; cases h
  · intro _ w hw
    cases hw
    exact responseAllowed_ok _
  · intro _ h; cases h
  · intro _ h; cases h
  · intro _ h; cases h
  · intro _ _ h; cases h

/-- A command in flight, the empty outcome of a finished machine, and a program of one command. -/
theorem witness_EveryStepGoesOnAndProgramsFinish : Coherent answering ∧ loaded.finished = true ∧
    outcomeOf 0 loaded = some { replies := [], kvalid := true, ks := some katSchedule } ∧
    (∃ t, steps 1 loaded = .next t) ∧
    ({ loaded with program := [.command 0#67] } : State).program = [.command 0#67] ∧ loaded.busy = false ∧
    loaded.job = none :=
  ⟨witness_AcceptedCommandIsAnswered.1, rfl, rfl, ⟨_, rfl⟩, rfl, rfl, rfl⟩

/-- A block command at its last stage is a coherent busy state too. -/
theorem witness_AcceptedCommandIsAnswered_lastStage :
    Coherent { loaded with busy := true, flight := .block, stg := 17 } := by
  refine ⟨fun _ => rfl, ?_, ?_, fun _ => ⟨katKey, test_schedule.symm⟩, ?_, ?_, ?_, ?_⟩
  · intro h; cases h
  · intro _ w hw; cases hw
  · intro _ h; cases h
  · intro _ _; exact ⟨rfl, by decide, by decide⟩
  · intro _ h; cases h
  · intro _ _ h; cases h

/-- So is a LOADKEY just accepted. -/
theorem witness_AcceptedCommandIsAnswered_firstStage : Coherent loading := by
  refine ⟨fun _ => rfl, ?_, ?_, ?_, ?_, ?_, ?_, ?_⟩
  · intro h; cases h
  · intro _ w hw; cases hw
  · intro h; cases h
  · intro _ _
    exact ⟨rfl, by decide, by decide, katKey, by decide +kernel, by decide +kernel, fun i hi => absurd hi (by simp [loading, accept])⟩
  · intro _ h; cases h
  · intro _ h; cases h
  · intro _ _ h; cases h

theorem witness_IdleCoreTakesOrKeeps : (⟨false, true, 0⟩ : Pins).rst = false ∧ loaded.busy = false ∧
    (⟨false, true, 0⟩ : Pins).cmdValid = true ∧ (⟨false, false, 0⟩ : Pins).cmdValid = false := by decide

theorem witness_ResetWins : (⟨true, true, 0⟩ : Pins).rst = true := by decide

theorem witness_EveryStepKeepsCoherence : Coherent answering ∧ ∃ t, step answering = .next t :=
  ⟨witness_AcceptedCommandIsAnswered.1, _, rfl⟩

/-- Two machines after reset that differ in everything the spec leaves unspecified. -/
theorem witness_NothingUnspecifiedIsSeen :
    SameToHost State.reset { State.reset with ks := katSchedule, l := 1, c := 2, stg := 3, rsp := 4, fresh := 9 } ∧
    ∃ t, step State.reset = .next t := by
  refine ⟨⟨rfl, rfl, rfl, rfl, rfl, rfl, ?_, ?_, ?_, ?_, ?_⟩, _, rfl⟩ <;> decide

theorem witness_ResetsLookTheSame : State.reset.job = loaded.job ∧ State.reset.results = loaded.results ∧
    State.reset.program = loaded.program := by decide

theorem witness_PadlenIsTheSmallestMultiple : (0 < 16 ∧ 16 % 8 = 0 ∧ 9 ≤ 16) ∧ 0 < 8 := by decide

theorem witness_MemReadAndWriteAreInverse : 8 + 8 ≤ (newBuffer 16).length ∧ 7 < 8 ∧ (7 < 8 ∨ 8 + 8 ≤ 7) ∧
    (16 < 8 ∨ 8 + 8 ≤ 16) := by decide

theorem witness_BlocksAreIndependent : (newBuffer 16).length % 8 = 0 ∧ 8 * 1 < (newBuffer 16).length := by decide

theorem witness_BlockOrderIsIrrelevant : (newBuffer 16).length % 8 = 0 ∧
    [1, 0].Perm (List.range ((newBuffer 16).length / 8)) := by decide

theorem witness_BufferRoundTrips : 0 < (newBuffer 8).length ∧ (newBuffer 8).length % 8 = 0 := by decide

theorem witness_FirstFailingCheckIsReported : ([] : List Byte).length = 0 ∧
    ((newBuffer 5).length ≠ 0 ∧ (newBuffer 5).length % 8 ≠ 0) ∧
    ((newBuffer 8).length ≠ 0 ∧ (newBuffer 8).length % 8 = 0) := by decide

theorem witness_SequencerComputesTheOperation : loaded.kvalid = true ∧ 0 < padlen 0 / 8 ∧
    0 < (newBuffer 8).length ∧ (newBuffer 8).length % 8 = 0 ∧ 0 < (newBuffer 8).length / 8 := by decide

theorem witness_OperationEndsBeforeTheNextCommand :
    (({ loaded with program := [.encbuf [] true, .command 0] } : State).program = .encbuf [] true :: .command 0 :: [] ∧
      loaded.busy = false ∧ loaded.job = none ∧ loaded.kvalid = true) ∧
    (({ loaded with program := [.decbuf (newBuffer 8) true, .command 0] } : State).program =
      .decbuf (newBuffer 8) true :: .command 0 :: [] ∧ 0 < (newBuffer 8).length ∧ (newBuffer 8).length % 8 = 0) ∧
    ({ loaded with program := [.encbuf [] true] } : State).program = [.encbuf [] true] ∧
    ({ loaded with program := [.decbuf (newBuffer 8) true] } : State).program = [.decbuf (newBuffer 8) true] := by
  decide

theorem witness_TurnUsesTheScheduleInForce :
    (∃ j, twoBlocks.job = some j ∧ twoBlocks.kvalid = true ∧ 8 * (j.next + 1) < j.out.length) ∧
    (∃ j, oneBlock.job = some j ∧ oneBlock.kvalid = true ∧ j.out.length ≤ 8 * (j.next + 1)) ∧
    (∃ j, ({ twoBlocks with kvalid := false } : State).job = some j ∧
      ({ twoBlocks with kvalid := false } : State).kvalid = false) := by
  refine ⟨⟨_, rfl, rfl, by decide⟩, ⟨_, rfl, rfl, by decide⟩, _, rfl, rfl⟩

theorem witness_RefusedBufferOperationChangesNothing :
    encbuf State.reset.kvalid State.reset.ks [1] true = .error .invalidParameterNoKey ∧
    decbuf loaded.kvalid loaded.ks (newBuffer 8) false = .error .allocationFailure := ⟨rfl, rfl⟩

end Sys2Proof.Tests
end

section
/-!
PROOFS. The subkey store as the persistent state: what leaves `KS` and `KVALID` alone (R21), and what a response depends
on (R22).
-/

namespace Sys2Proof.Machine

/-! ### What leaves the store alone -/

/-- Every command but LOADKEY leaves the store alone (R21). -/
theorem exec_store_frame {i : Instr} {s t : State} (h : exec i s = .next t) (hi : ∀ key, i ≠ .loadkey key) :
    t.ks = s.ks ∧ t.kvalid = s.kvalid := by
  obtain ⟨key, hkey, _⟩ | ⟨_, _, _, _, h'⟩ | ⟨_, _, _, h'⟩ | ⟨_, _, _, h'⟩ := exec_cases i s
  · exact absurd hkey (hi key)
  all_goals rw [h'] at h; cases h; exact ⟨rfl, rfl⟩

/-- The sequencer issues block commands only, so its turns leave the store alone (R132, R137). -/
theorem sequencerTurn_store_frame {s t : State} (h : sequencerTurn s = .next t) :
    t.ks = s.ks ∧ t.kvalid = s.kvalid := by
  obtain ⟨_, h'⟩ | ⟨j, u, _, hu, h'⟩ := sequencerTurn_cases s <;> rw [h'] at h <;> cases h
  · exact ⟨rfl, rfl⟩
  · have hframe := exec_store_frame hu (jobCommand_ne_loadkey j)
    rw [takeResponse_frame]
    exact hframe

theorem startEncbuf_store_frame (bytes : List Byte) (ok : Bool) (s : State) :
    (startEncbuf bytes ok s).ks = s.ks ∧ (startEncbuf bytes ok s).kvalid = s.kvalid := by
  match h : encbufCheck s.kvalid ok with
  | none => simp [startEncbuf_job _ _ _ h]
  | some e => simp [startEncbuf_error _ _ _ e h]

theorem startDecbuf_store_frame (bytes : List Byte) (ok : Bool) (s : State) :
    (startDecbuf bytes ok s).ks = s.ks ∧ (startDecbuf bytes ok s).kvalid = s.kvalid := by
  match h : decbufCheck bytes s.kvalid ok with
  | none => simp [startDecbuf_job _ _ _ h]
  | some e => simp [startDecbuf_error _ _ _ e h]

/-- The acceptance of any command but LOADKEY starts no key load and leaves the store alone. -/
theorem accept_store_frame (i : Instr) (s : State) (hi : ∀ key, i ≠ .loadkey key) :
    (accept i s).flight ≠ .keyLoad ∧ (accept i s).ks = s.ks ∧ (accept i s).kvalid = s.kvalid := by
  cases i with
  | loadkey key => exact absurd rfl (hi key)
  | encrypt block => simp only [accept]; split <;> simp
  | decrypt block => simp only [accept]; split <;> simp
  | rdsk idx => simp only [accept]; split <;> simp
  | reserved0 | reserved5 | reserved6 | reserved7 => simp [accept]

/-- Any number of stages of a command other than LOADKEY leaves the store alone. -/
theorem runStages_store_frame (n : Nat) (s : State) (h : s.flight ≠ .keyLoad) :
    (runStages n s).ks = s.ks ∧ (runStages n s).kvalid = s.kvalid :=
  (runStages_induction (P := fun t => t.flight ≠ .keyLoad ∧ t.ks = s.ks ∧ t.kvalid = s.kvalid)
    (fun t _ ⟨hf, hks, hkv⟩ => by
      obtain ⟨hks', hkv'⟩ := stage_store_frame t hf
      exact ⟨by rwa [stage_flight], hks'.trans hks, hkv'.trans hkv⟩) n s ⟨h, rfl, rfl⟩).2

/-! ### What changes the store -/

/-- A clock edge leaves the store alone unless a key load is in flight, `rst` is 1 or a LOADKEY is on the pins. -/
theorem clockEdge_store_cases (pins : Pins) (n : Nat) (s : State) :
    ((clockEdge pins n s).ks = s.ks ∧ (clockEdge pins n s).kvalid = s.kvalid) ∨
    (s.busy = true ∧ s.flight = .keyLoad) ∨
    (pins.rst = true ∨ (pins.cmdValid = true ∧ ∃ key, decode pins.cmd = .loadkey key)) := by
  obtain ⟨hrst, _⟩ | ⟨_, hb, h⟩ | ⟨_, _, hv, h⟩ | ⟨_, _, _, h⟩ := clockEdge_cases pins n s
  · exact .inr (.inr (.inl hrst))
  · by_cases hf : s.flight = .keyLoad
    · exact .inr (.inl ⟨hb, hf⟩)
    · rw [h]; exact .inl (runStages_store_frame n s hf)
  · by_cases hkey : ∃ key, decode pins.cmd = .loadkey key
    · exact .inr (.inr (.inr ⟨hv, hkey⟩))
    · obtain ⟨hf, hks, hkv⟩ := accept_store_frame (decode pins.cmd) s (fun key hk => hkey ⟨key, hk⟩)
      obtain ⟨hks', hkv'⟩ := runStages_store_frame n _ hf
      rw [h]; exact .inl ⟨hks'.trans hks, hkv'.trans hkv⟩
  · rw [h]; exact .inl ⟨rfl, rfl⟩

/-- An event leaves the store alone unless it is a reset, a LOADKEY, an edge that brings one of them, or comes upon a
key load in flight. -/
theorem runEvent_store_cases {e : Event} {s t : State} (h : runEvent e s = .next t) :
    (t.ks = s.ks ∧ t.kvalid = s.kvalid) ∨
    (s.busy = true ∧ s.flight = .keyLoad) ∨
    e = .reset ∨
    (∃ key w, decode w = .loadkey key ∧ e = .command w) ∨
    (∃ pins n, e = .edge pins n ∧
      (pins.rst = true ∨ (pins.cmdValid = true ∧ ∃ key, decode pins.cmd = .loadkey key))) := by
  cases e with
  | command w =>
    by_cases hkey : ∃ key, decode w = .loadkey key
    · obtain ⟨key, hkey⟩ := hkey
      exact .inr (.inr (.inr (.inl ⟨key, w, hkey, rfl⟩)))
    · exact .inl (exec_store_frame h fun key hk => hkey ⟨key, hk⟩)
  | reset => exact .inr (.inr (.inl rfl))
  | encbuf bytes ok => cases h; exact .inl (startEncbuf_store_frame bytes ok s)
  | decbuf bytes ok => cases h; exact .inl (startDecbuf_store_frame bytes ok s)
  | sequencerTurn => exact .inl (sequencerTurn_store_frame h)
  | edge pins n =>
    cases h
    obtain hsame | hload | hpins := clockEdge_store_cases pins n s
    · exact .inl hsame
    · exact .inr (.inl hload)
    · exact .inr (.inr (.inr (.inr ⟨pins, n, rfl, hpins⟩)))

/-- Settles O20: each kind of step either has a frame lemma for the store or is one of the changes that R21 allows. -/
theorem onlyLoadkeyAndResetChangeTheStore : Obligations.OnlyLoadkeyAndResetChangeTheStore := by
  refine ⟨fun i s t h hi => exec_store_frame h hi, fun s t h hne => ?_⟩
  have hchanged : ¬ (t.ks = s.ks ∧ t.kvalid = s.kvalid) := fun ⟨hks, hkv⟩ => hne.elim (· hks) (· hkv)
  obtain ⟨hb, h'⟩ | ⟨_, _, h'⟩ | ⟨e, rest, hp, _, _, h'⟩ := step_cases s <;> rw [h'] at h
  · cases h
    exact .inl ⟨hb, not_not.1 fun hf => hchanged (stage_store_frame s hf)⟩
  · exact absurd (sequencerTurn_store_frame h) hchanged
  · obtain hsame | hload | rfl | ⟨key, w, hkey, rfl⟩ | ⟨pins, n, rfl, hpins⟩ := runEvent_store_cases h
    · exact absurd hsame hchanged
    · exact .inl hload
    · exact .inr (.inl ⟨rest, hp⟩)
    · exact .inr (.inr (.inl ⟨key, w, rest, hkey, hp⟩))
    · exact .inr (.inr (.inr ⟨pins, n, rest, hp, hpins⟩))

/-! ### What a response depends on -/

/-- The responses of two block commands agree when the schedules in force do (R22). -/
theorem blockCommand_rsp_congr (dir : Bool) (block : Block) {s s' : State} (hkv : s.kvalid = s'.kvalid)
    (hks : s.kvalid = true → s.ks = s'.ks) :
    (blockCommand dir block s).rsp = (blockCommand dir block s').rsp := by
  rcases Bool.eq_false_or_eq_true s.kvalid with hk | hk
  · rw [blockCommand_of_kvalid _ _ _ hk, blockCommand_of_kvalid _ _ _ (hkv ▸ hk)]
    simp [hks hk]
  · rw [blockCommand_of_not_kvalid _ _ _ hk, blockCommand_of_not_kvalid _ _ _ (hkv ▸ hk)]
    simp

/-- The response to a command is a function of the command and of the schedule in force (R22). -/
theorem exec_rsp_congr {i : Instr} {s s' t t' : State} (hkv : s.kvalid = s'.kvalid)
    (hks : s.kvalid = true → s.ks = s'.ks) (h : exec i s = .next t) (h' : exec i s' = .next t') : t.rsp = t'.rsp := by
  cases i with
  | loadkey key | reserved0 | reserved5 | reserved6 | reserved7 => cases h; cases h'; rfl
  | encrypt block | decrypt block => cases h; cases h'; exact blockCommand_rsp_congr _ block hkv hks
  | rdsk idx =>
    rcases Bool.eq_false_or_eq_true s.kvalid with hk | hk
    · rw [exec_rdsk_of_kvalid _ _ hk] at h
      rw [exec_rdsk_of_kvalid _ _ (hkv ▸ hk)] at h'
      cases h; cases h'
      simp [readKS, hks hk]
    · rw [exec_rdsk_of_not_kvalid _ _ hk] at h
      rw [exec_rdsk_of_not_kvalid _ _ (hkv ▸ hk)] at h'
      cases h; cases h'
      simp

/-- States with the same schedule in force have the same schedule in force after the same command. -/
theorem exec_store_congr {i : Instr} {s s' t t' : State} (hkv : s.kvalid = s'.kvalid)
    (hks : s.kvalid = true → s.ks = s'.ks) (h : exec i s = .next t) (h' : exec i s' = .next t') :
    t.kvalid = t'.kvalid ∧ (t.kvalid = true → t.ks = t'.ks) := by
  by_cases hkey : ∃ key, i = .loadkey key
  · obtain ⟨key, rfl⟩ := hkey
    cases h; cases h'
    simp
  · have hi : ∀ key, i ≠ .loadkey key := fun key hk => hkey ⟨key, hk⟩
    obtain ⟨htks, htkv⟩ := exec_store_frame h hi
    obtain ⟨htks', htkv'⟩ := exec_store_frame h' hi
    rw [htks, htkv, htks', htkv']
    exact ⟨hkv, hks⟩

/-- Settles O22: the congruence of each command in the schedule in force; ENCRYPT leaves that schedule alone, so the
second of two meets it as the first did. -/
theorem responseDependsOnlyOnTheStore : Obligations.ResponseDependsOnlyOnTheStore := by
  refine ⟨fun i s s' t t' hkv hks h h' => ⟨exec_rsp_congr hkv hks h h', exec_store_congr hkv hks h h'⟩,
    fun block s t u h h' => ?_⟩
  obtain ⟨hks, hkv⟩ := exec_store_frame h (by simp)
  exact exec_rsp_congr hkv (fun _ => hks) h' h

end Sys2Proof.Machine
end

section
/-!
PROOFS. The bytes of a buffer as the memory of a buffer operation: a block store and a block load at one place are inverse
(R31, R32). Both directions compare bytes, so both rest on what a byte is after a store and what a byte of a load is.
-/

namespace Sys2Proof.Machine

/-- Two blocks are equal when their eight bytes are. -/
theorem block_ext {v w : Block} (h : ∀ j, j < 8 → blockByte v j = blockByte w j) : v = w := by
  rw [← block_of_blockBytes v, ← block_of_blockBytes w, h 0 (by decide), h 1 (by decide), h 2 (by decide),
    h 3 (by decide), h 4 (by decide), h 5 (by decide), h 6 (by decide), h 7 (by decide)]

/-- A byte at the place of a block store is the block's byte. -/
theorem byteAt_memWrite_inside {buf : List Byte} {a j : Nat} (v : Block) (h : a + 8 ≤ buf.length) (hj : j < 8) :
    byteAt (memWrite buf a v) (a + j) = blockByte v j := by
  rw [byteAt_memWrite buf a v h, if_pos (by omega), Nat.add_sub_cancel_left]

/-- A byte outside the place of a block store stays. -/
theorem byteAt_memWrite_outside {buf : List Byte} {a j : Nat} (v : Block) (h : a + 8 ≤ buf.length)
    (hj : j < a ∨ a + 8 ≤ j) : byteAt (memWrite buf a v) j = byteAt buf j := by
  rw [byteAt_memWrite buf a v h, if_neg (by omega)]

/-- A block store is read back. -/
theorem memRead_memWrite {buf : List Byte} {a : Nat} (v : Block) (h : a + 8 ≤ buf.length) :
    memRead (memWrite buf a v) a = v := by
  apply block_ext
  intro j hj
  rw [blockByte_memRead _ a j hj, byteAt_memWrite_inside v h hj]

/-- Storing the block that stands at a place leaves the buffer. -/
theorem memWrite_memRead {buf : List Byte} {a : Nat} (h : a + 8 ≤ buf.length) :
    memWrite buf a (memRead buf a) = buf := by
  refine buffer_ext (memWrite_length _ _ _) fun j _ => ?_
  by_cases hj : j < a ∨ a + 8 ≤ j
  · exact byteAt_memWrite_outside _ h hj
  · obtain ⟨k, rfl⟩ := Nat.exists_eq_add_of_le (show a ≤ j by omega)
    have hk : k < 8 := by omega
    rw [byteAt_memWrite_inside _ h hk, blockByte_memRead buf a k hk]

/-- Settles O52: the two inverse laws, with the bytes inside and outside the place of a store. -/
theorem memReadAndWriteAreInverse : Obligations.MemReadAndWriteAreInverse :=
  ⟨fun buf a v h => ⟨memRead_memWrite v h, memWrite_length buf a v, fun _ hj => byteAt_memWrite_inside v h hj,
    fun _ hj => byteAt_memWrite_outside v h hj⟩, fun _ _ h => memWrite_memRead h⟩

end Sys2Proof.Machine
end

section
/-!
PROOFS. Command words against commands: what the fields of a word say about the command it decodes to (R49, R51, R55), and
that the word of a command and its line give it back (R48, R57).
-/

namespace Sys2Proof

/-! ### What a word decodes to -/

/-- The opcode of the decoded command is the word's (R49). -/
theorem opcodeOf_decode (w : CommandWord) : opcodeOf (decode w) = opField w := by
  obtain ⟨op, arg, rfl⟩ := exists_commandWord w
  rw [opField_commandWord, decode_commandWord]
  rcases opcode_cases op with rfl | rfl | rfl | rfl | rfl | rfl | rfl | rfl <;> rfl

theorem decode_of_opField_rdsk {w : CommandWord} (h : opField w = 0b100#3) : decode w = .rdsk (idxField w) := by
  rw [decode, h]; rfl

/-- Only the opcode of a word with a reserved opcode matters (R55). -/
theorem decode_congr_of_reserved {w w' : CommandWord} (h : opField w ∈ [0b000#3, 0b101#3, 0b110#3, 0b111#3])
    (h' : opField w' = opField w) : decode w = decode w' := by
  rw [decode, decode, h']
  simp only [List.mem_cons, List.not_mem_nil, or_false] at h
  rcases h with h | h | h | h <;> rw [h] <;> rfl

/-- A LOADKEY, ENCRYPT or DECRYPT word is the word of its command: no bit of it is lost (R51). -/
theorem encode_decode_of_full {w : CommandWord} (h : opField w ∈ [0b001#3, 0b010#3, 0b011#3]) :
    encode (decode w) = w := by
  have harg : argumentOf (decode w) = argField w := by
    simp only [List.mem_cons, List.not_mem_nil, or_false] at h
    rcases h with h | h | h <;> rw [decode, h] <;> rfl
  rw [encode, opcodeOf_decode, harg, commandWord_fields]

/-- Two words that decode to the same command are equal when the first has an opcode that uses every bit. -/
theorem eq_of_decode_eq_of_full {w w' : CommandWord} (h : opField w ∈ [0b001#3, 0b010#3, 0b011#3])
    (heq : decode w = decode w') : w = w' := by
  have h' : opField w' ∈ [0b001#3, 0b010#3, 0b011#3] := by rwa [← opcodeOf_decode, ← heq, opcodeOf_decode]
  rw [← encode_decode_of_full h, heq, encode_decode_of_full h']

/-! ### The word and the line of a command -/

/-- The word of a command decodes to it. -/
@[simp] theorem decode_encode (i : Instr) : decode (encode i) = i := by
  rw [encode, decode_commandWord]
  cases i with
  | rdsk idx =>
    have hidx : (idx.setWidth 64).extractLsb' 0 4 = idx := by
      rw [BitVec.extractLsb'_setWidth_of_le (by decide), BitVec.extractLsb'_eq_self]
    exact congrArg Instr.rdsk hidx
  | loadkey _ | encrypt _ | decrypt _ | reserved0 | reserved5 | reserved6 | reserved7 => rfl

/-- Every command is well formed: its operands have the widths of R51. -/
theorem Instr.wf_eq_true (i : Instr) : i.wf = true := by
  cases i with
  | loadkey key => exact (Laws.EncodingFollowsRow.loadkey key).1
  | encrypt block => exact (Laws.EncodingFollowsRow.encrypt block).1
  | decrypt block => exact (Laws.EncodingFollowsRow.decrypt block).1
  | rdsk idx => exact (Laws.EncodingFollowsRow.rdsk idx).1
  | reserved0 | reserved5 | reserved6 | reserved7 => rfl

/-- The line of a command assembles to its word (R57). -/
theorem assemble_ofInstr (i : Instr) : assemble (Line.ofInstr i) = some (encode i) := by
  have hwf : (Line.ofInstr i).wf = true := i.wf_eq_true
  rw [assemble.eq_def, if_pos hwf]
  cases i with
  | loadkey _ | encrypt _ | decrypt _ | rdsk _ => simp [Line.ofInstr]
  | reserved0 | reserved5 | reserved6 | reserved7 => rfl

end Sys2Proof

namespace Sys2Proof.Machine

/-- LOADKEY answers OK, whatever its argument and the state (R103). -/
theorem exec_loadkey_ok (key : Key) (s : State) :
    ∃ t, exec (.loadkey key) s = .next t ∧ responseStatus t.rsp = Status.ok.code :=
  ⟨_, exec_loadkey key s, by rw [keyDone_rsp, responseStatus_responseWord]⟩

/-- Settles O3: an RDSK word decodes by its index, a reserved word by its opcode, and any other word is the word of its
command. -/
theorem ignoredArgumentBits : Obligations.IgnoredArgumentBits :=
  ⟨fun _ _ h h' hidx => by rw [decode_of_opField_rdsk h, decode_of_opField_rdsk h', hidx],
    fun _ _ h h' => decode_congr_of_reserved h h', fun _ _ h heq => eq_of_decode_eq_of_full h heq, exec_loadkey_ok⟩

/-- Settles O5: a word of 67 bits fits in the number, and decoding and assembling undo the encoder and the printer. -/
theorem wordsAndLinesStandForCommands : Obligations.WordsAndLinesStandForCommands := fun i _ h =>
  ⟨by rw [decodeTableWord_of_lt _ h, decode_encode], assemble_ofInstr i⟩

end Sys2Proof.Machine
end

section
/-!
PROOFS. The position tables as wiring: a table undoes another when its entries lead back through the other's (R67), because
`permute` moves each bit from where the entry points (R80).
-/

namespace Sys2Proof.Machine

/-- The bit at position `i` of `permute` is the source bit at position `T[i]` (R80). -/
theorem msb_permute {win wout : Nat} (t : Table win wout) (v : BitVec win) {i : Nat} (h1 : 1 ≤ i) (h2 : i ≤ wout) :
    msb (permute t v) i = msb v (t.entry i) := by
  rw [msb, getLsbD_permute t v (wout - i) (by omega), Nat.sub_sub_self h2]

/-- `permute` by `u` undoes `permute` by `t` when the entries of `u` lead back through those of `t`. -/
theorem permute_permute_eq_self {win wout : Nat} {t : Table win wout} {u : Table wout win}
    (h : ∀ i, 1 ≤ i → i ≤ win → t.entry (u.entry i) = i) (v : BitVec win) : permute u (permute t v) = v := by
  apply eq_of_msb_eq
  intro i h1 h2
  obtain ⟨hu1, hu2⟩ := u.entry_range i h1 h2
  rw [msb_permute u _ h1 h2, msb_permute t v hu1 hu2, h i h1 h2]

/-- `FP[IP[i]] = i` (R67). -/
theorem tableFP_entry_tableIP_entry (i : Nat) (h1 : 1 ≤ i) (h2 : i ≤ 64) : tableFP.entry (tableIP.entry i) = i := by
  have hall : ∀ i ∈ List.range' 1 64, tableFP.entry (tableIP.entry i) = i := by decide
  exact hall i (List.mem_range'_1.2 ⟨h1, by omega⟩)

/-- `IP[FP[i]] = i` (R67). -/
theorem tableIP_entry_tableFP_entry (i : Nat) (h1 : 1 ≤ i) (h2 : i ≤ 64) : tableIP.entry (tableFP.entry i) = i := by
  have hall : ∀ i ∈ List.range' 1 64, tableIP.entry (tableFP.entry i) = i := by decide
  exact hall i (List.mem_range'_1.2 ⟨h1, by omega⟩)

/-- Permuting by `IP` and then by `FP` gives the block back (R67). -/
theorem permute_tableFP_tableIP (v : Block) : permute tableFP (permute tableIP v) = v :=
  permute_permute_eq_self tableIP_entry_tableFP_entry v

/-- Permuting by `FP` and then by `IP` gives the block back (R67). -/
theorem permute_tableIP_tableFP (v : Block) : permute tableIP (permute tableFP v) = v :=
  permute_permute_eq_self tableFP_entry_tableIP_entry v

/-- Settles O26: the 64 entries of each table lead back through the other, and so each permutation undoes the other. -/
theorem finalPermutationInvertsInitial : Obligations.FinalPermutationInvertsInitial :=
  ⟨fun i h1 h2 => ⟨tableFP_entry_tableIP_entry i h1 h2, tableIP_entry_tableFP_entry i h1 h2⟩, permute_tableFP_tableIP,
    permute_tableIP_tableFP⟩

end Sys2Proof.Machine
end

section
/-!
PROOFS. The permutation engine: what the loop of R80 puts at each position, and the rule's example on the expansion table.
-/

namespace Sys2Proof.Machine

/-- The example of R80: `E` selects source bit 1 at positions 2 and 48 and nowhere else. -/
theorem permute_tableE_msbOnly : permute tableE 0x80000000#32 = 0x400000000001#48 := by
  have hall : ∀ i ∈ List.range' 1 48, msb 0x80000000#32 (tableE.entry i) = msb 0x400000000001#48 i := by decide
  apply eq_of_msb_eq
  intro i h1 h2
  rw [msb_permute tableE _ h1 h2, hall i (List.mem_range'_1.2 ⟨h1, by omega⟩)]

/-- Settles O24: the loop shifts in one source bit per table entry, so position `i` holds the bit that entry `i` names. -/
theorem permuteSelectsSourceBits : Obligations.PermuteSelectsSourceBits :=
  ⟨fun _ _ t v _ h1 h2 => msb_permute t v h1 h2, permute_tableE_msbOnly⟩

end Sys2Proof.Machine
end

section
/-!
PROOFS. S-box substitution: the row-major address of a group is the number `16*row + col` (R73, R92), and each nibble of
`sbox` is the entry that one box has for its group (R90).
-/

namespace Sys2Proof.Machine

/-! ### The address of a group -/

/-- The row of a group, as a number. -/
theorem rowOf_toNat (g : BitVec 6) : (rowOf g).toNat = 2 * (g.getLsbD 5).toNat + (g.getLsbD 0).toNat := by
  have hlow : (BitVec.ofBool (g.getLsbD 0)).toNat < 2 ^ 1 := BitVec.isLt _
  rw [rowOf, BitVec.toNat_append, ← Nat.shiftLeft_add_eq_or_of_lt hlow, Nat.shiftLeft_eq, Nat.mul_comm,
    BitVec.toNat_ofBool, BitVec.toNat_ofBool, Nat.pow_one]

/-- The address `row ‖ col` is the number `16*row + col` (R73, R92). -/
theorem rowMajor_toNat (g : BitVec 6) : (rowMajor g).toNat = 16 * (rowOf g).toNat + (colOf g).toNat := by
  rw [rowMajor, BitVec.toNat_append, ← Nat.shiftLeft_add_eq_or_of_lt (colOf g).isLt, Nat.shiftLeft_eq, Nat.mul_comm]

/-- A lookup is the entry at the number of its address. -/
theorem SBox.some_lookup (t : SBox) (j : BitVec 6) : some (t.lookup j) = t[j.toNat]? :=
  (Vector.getElem?_eq_getElem j.isLt).symm

/-! ### The nibbles of a concatenation -/

/-- Nibbles one after the other, the first most significant. -/
def concatNibbles : (n : Nat) → (Fin (n + 1) → BitVec 4) → BitVec (4 * (n + 1))
  | 0, f => f 0
  | n + 1, f => concatNibbles n (fun i => f i.castSucc) ++ f (Fin.last (n + 1))

/-- Each nibble stands in the concatenation at its place, counted from the most significant. -/
theorem extractLsb'_concatNibbles {n : Nat} (f : Fin (n + 1) → BitVec 4) (i : Fin (n + 1)) :
    (concatNibbles n f).extractLsb' (4 * (n - i)) 4 = f i := by
  induction n with
  | zero =>
    obtain rfl := Fin.fin_one_eq_zero i
    exact BitVec.extractLsb'_eq_self
  | succ n ih =>
    change (concatNibbles n (fun i => f i.castSucc) ++ f (Fin.last (n + 1))).extractLsb' _ 4 = f i
    cases i using Fin.lastCases with
    | last => rw [Fin.val_last, Nat.sub_self, extractLsb'_append_low]
    | cast i =>
      have hplace : 4 * (n + 1 - i.castSucc) - 4 = 4 * (n - i) := by rw [Fin.val_castSucc]; omega
      rw [BitVec.extractLsb'_append_eq_of_le (by rw [Fin.val_castSucc]; omega), hplace, ih]

/-! ### The nibbles of the substitution -/

/-- The boxes `S1` to `S8`, in order (R74). -/
def boxes : List SBox := [tableS1, tableS2, tableS3, tableS4, tableS5, tableS6, tableS7, tableS8]

/-- What each box has for its own group; the groups count from 1 (R90). -/
def boxNibble (x : BitVec 48) (i : Fin 8) : BitVec 4 := (boxes[i.val]'i.isLt).lookup (rowMajor (group x (i + 1)))

/-- The nibbles of `sbox(x)` stand most significant first (R90). -/
theorem sbox_eq_concatNibbles (x : BitVec 48) : sbox x = concatNibbles 7 (boxNibble x) := rfl

/-- Nibble `k` of `sbox(x)` is what box `k` has for group `k` (R90). -/
theorem extractLsb'_sbox (x : BitVec 48) {k : Nat} {box : SBox} (hbox : boxes[k - 1]? = some box) (h1 : 1 ≤ k) :
    (sbox x).extractLsb' (32 - 4 * k) 4 = box.lookup (rowMajor (group x k)) := by
  obtain ⟨i, rfl⟩ := Nat.exists_eq_add_of_le' h1
  obtain ⟨hi, rfl⟩ := List.getElem?_eq_some_iff.1 hbox
  have hplace : 32 - 4 * (i + 1) = 4 * (7 - i) := by omega
  rw [sbox_eq_concatNibbles, hplace]
  exact extractLsb'_concatNibbles (boxNibble x) ⟨i, hi⟩

/-- Settles O28: nibble `k` is a lookup in box `k`, at the address that is `16*row + col` as a number. -/
theorem sboxLooksUpEachGroup : Obligations.SboxLooksUpEachGroup := fun x k _ hbox h1 =>
  ⟨group x k, rfl, by rw [extractLsb'_sbox x hbox h1, SBox.some_lookup, rowMajor_toNat, rowOf_toNat, colOf]⟩

end Sys2Proof.Machine
end

section
/-!
PROOFS. The key schedule: the closed form of a subkey (R109), and what the schedule makes of parity bits (R102) and of
weak keys (R103).
-/

namespace Sys2Proof.Machine

/-! ### The closed form of a subkey -/

/-- One more round turns the halves by its own amount. -/
theorem turnedBy_succ {n : Nat} (h : n < 16) : turnedBy (n + 1) = turnedBy n + shifts[n] :=
  List.sum_take_succ shifts.toList n (by simpa using h)

/-- Subkey `i` is selected from the key's halves turned by the amounts 0 to `i` (R109). -/
theorem subkeyAt_schedule_eq_selectSubkey (key : Key) (i : SubkeyIndex) : subkeyAt (schedule key) i =
    selectSubkey ((keyHalves key).1.rotateLeft (turnedBy (i.toNat + 1)))
      ((keyHalves key).2.rotateLeft (turnedBy (i.toNat + 1))) := by
  rw [subkeyAt_schedule]
  exact scheduleRounds_getElem shifts.toList shift_lt _ _ _ _

/-! ### Parity bits -/

/-- The schedule sees only what `PC1` selects (R100). -/
theorem schedule_congr {key key' : Key} (h : permute tablePC1 key = permute tablePC1 key') :
    schedule key = schedule key' := by
  have hhalves : keyHalves key = keyHalves key' := by rw [keyHalves, keyHalves, h]
  apply schedule_ext
  intro i
  rw [subkeyAt_schedule_eq_selectSubkey, subkeyAt_schedule_eq_selectSubkey, hhalves]

/-- `PC1` selects no parity position (R70, R102). -/
theorem tablePC1_skips_parity : ∀ p ∈ tablePC1.positions, p % 8 ≠ 0 := by decide

/-- Keys that agree outside the parity positions have the same schedule (R102). -/
theorem schedule_eq_of_msb_eq {key key' : Key}
    (h : ∀ p, 1 ≤ p → p ≤ 64 → p % 8 ≠ 0 → msb key p = msb key' p) : schedule key = schedule key' := by
  apply schedule_congr
  apply permute_congr
  intro p hp
  obtain ⟨h1, h2⟩ := tablePC1.in_range p hp
  exact h p h1 h2 (tablePC1_skips_parity p hp)

/-- A value that the mask of R102 clears has no bit outside the parity positions. -/
theorem msb_eq_false_of_parity_only {m : Key} (hm : m &&& 0xFEFEFEFEFEFEFEFE#64 = 0) {p : Nat} (h1 : 1 ≤ p)
    (h2 : p ≤ 64) (hp : p % 8 ≠ 0) : msb m p = false := by
  have hmask : ∀ p ∈ List.range' 1 64, p % 8 ≠ 0 → msb 0xFEFEFEFEFEFEFEFE#64 p = true := by decide
  have hbit : (msb m p && msb 0xFEFEFEFEFEFEFEFE#64 p) = false := by
    rw [msb, msb, ← BitVec.getLsbD_and, hm, BitVec.ofNat_eq_ofNat, BitVec.getLsbD_zero]
  rwa [hmask p (List.mem_range'_1.2 ⟨h1, by omega⟩) hp, Bool.and_true] at hbit

/-- Changing parity bits only leaves the schedule (R102). -/
theorem schedule_xor_parity (key : Key) {m : Key} (hm : m &&& 0xFEFEFEFEFEFEFEFE#64 = 0) :
    schedule key = schedule (key ^^^ m) := by
  apply schedule_eq_of_msb_eq
  intro p h1 h2 hp
  have hbit : m.getLsbD (64 - p) = false := msb_eq_false_of_parity_only hm h1 h2 hp
  rw [msb, msb, BitVec.getLsbD_xor, hbit, Bool.xor_false]

/-- Settles O32: `PC1` selects no parity position, so the parity bits never reach the halves; the two keys of the
example differ in parity bits only. -/
theorem scheduleIgnoresParity : Obligations.ScheduleIgnoresParity :=
  ⟨fun _ _ => schedule_eq_of_msb_eq, fun key _ => schedule_xor_parity key,
    schedule_xor_parity 0x133457799BBCDFF1#64 (m := 0x0100010101000101#64) (by decide)⟩

/-! ### Weak keys -/

/-- When no rotation changes the key's halves, all its subkeys are the same (R112). -/
theorem schedule_of_halves_fixed {key : Key} {c d : KeyHalf} (h : keyHalves key = (c, d))
    (hc : ∀ n, c.rotateLeft n = c) (hd : ∀ n, d.rotateLeft n = d) :
    schedule key = Vector.replicate 16 (selectSubkey c d) := by
  apply schedule_ext
  intro i
  rw [subkeyAt_schedule_eq_selectSubkey, h, hc, hd, subkeyAt, Vector.getElem_replicate]

/-- No rotation changes zeros (R111). -/
theorem zero_rotateLeft {w : Nat} (n : Nat) : (0#w).rotateLeft n = 0#w := by
  apply BitVec.eq_of_getLsbD_eq
  intro i hi
  rw [getLsbD_rotateLeft_mod _ _ _ hi, BitVec.getLsbD_zero, BitVec.getLsbD_zero]

/-- No rotation changes ones (R111). -/
theorem allOnes_rotateLeft {w : Nat} (n : Nat) : (BitVec.allOnes w).rotateLeft n = BitVec.allOnes w := by
  apply BitVec.eq_of_getLsbD_eq
  intro i hi
  have hfrom : (i + (w - n % w)) % w < w := Nat.mod_lt _ (by omega)
  rw [getLsbD_rotateLeft_mod _ _ _ hi, BitVec.getLsbD_allOnes, BitVec.getLsbD_allOnes, decide_eq_true hfrom,
    decide_eq_true hi]

/-- Selecting from zeros gives zeros (R112). -/
theorem permute_zero {win wout : Nat} (t : Table win wout) : permute t 0#win = 0#wout := by
  apply BitVec.eq_of_getLsbD_eq
  intro j hj
  rw [getLsbD_permute t _ j hj, msb, BitVec.getLsbD_zero, BitVec.getLsbD_zero]

/-- Selecting from ones gives ones (R112). -/
theorem permute_allOnes {win wout : Nat} (t : Table win wout) :
    permute t (BitVec.allOnes win) = BitVec.allOnes wout := by
  rw [← BitVec.not_zero, permute_not, permute_zero, BitVec.not_zero]

/-- The all-zero key has sixteen zero subkeys (R103). -/
theorem schedule_zero : schedule 0x0000000000000000#64 = Vector.replicate 16 0x000000000000#48 := by
  have hhalves : keyHalves 0x0000000000000000#64 = (0#28, 0#28) := by rw [keyHalves, permute_zero]; rfl
  have hsubkey : selectSubkey 0#28 0#28 = 0x000000000000#48 := permute_zero tablePC2
  rw [schedule_of_halves_fixed hhalves zero_rotateLeft zero_rotateLeft, hsubkey]

/-- The all-one key has sixteen all-one subkeys (R103). -/
theorem schedule_allOnes : schedule 0xFFFFFFFFFFFFFFFF#64 = Vector.replicate 16 0xFFFFFFFFFFFF#48 := by
  have hkey : 0xFFFFFFFFFFFFFFFF#64 = BitVec.allOnes 64 := rfl
  have hhalves : keyHalves (BitVec.allOnes 64) = (BitVec.allOnes 28, BitVec.allOnes 28) := by
    rw [keyHalves, permute_allOnes]; rfl
  have hsubkey : selectSubkey (BitVec.allOnes 28) (BitVec.allOnes 28) = 0xFFFFFFFFFFFF#48 := permute_allOnes tablePC2
  rw [hkey, schedule_of_halves_fixed hhalves allOnes_rotateLeft allOnes_rotateLeft, hsubkey]

/-- Settles O13: LOADKEY has one outcome, and the halves of the two degenerate keys are the same after every rotation. -/
theorem weakKeysAreLoadedLikeAnyOther : Obligations.WeakKeysAreLoadedLikeAnyOther :=
  ⟨fun key s => ⟨_, exec_loadkey key s, responseStatus_responseWord .ok 0, rfl⟩, schedule_zero, schedule_allOnes⟩

end Sys2Proof.Machine
end

section
/-!
PROOFS. The rounds of a key load: what the registers and `KS` hold after each of them (R107, R109), and each stage as the
spec states it (R106 to R108).
-/

namespace Sys2Proof.Machine

/-! ### One round -/

/-- The round of a stage, from the stage number. -/
theorem roundIndex_of_stg_toNat {s : State} {i : SubkeyIndex} (h : s.stg.toNat = i.toNat + 1) : roundIndex s = i := by
  have hstg : s.stg = BitVec.ofNat 5 (i.toNat + 1) := by rw [← h, BitVec.ofNat_toNat, BitVec.setWidth_eq]
  rw [roundIndex_of_stg s i.toNat i.isLt hstg, BitVec.ofNat_toNat, BitVec.setWidth_eq]

/-- The entry that a round writes (R107). -/
theorem subkeyAt_keyRound_same (s : State) :
    subkeyAt (keyRound s).ks (roundIndex s) = selectSubkey (keyRound s).c (keyRound s).d :=
  Vector.getElem_set_self _

/-- A round leaves the other entries (R107). -/
theorem subkeyAt_keyRound_of_ne {s : State} {j : SubkeyIndex} (h : j ≠ roundIndex s) :
    subkeyAt (keyRound s).ks j = subkeyAt s.ks j :=
  Vector.getElem_set_ne (roundIndex s).isLt j.isLt fun heq => h (BitVec.eq_of_toNat_eq heq.symm)

/-! ### The stages as the spec states them -/

/-- The next stage of a busy core. -/
theorem runStages_one {s : State} (h : s.busy = true) : runStages 1 s = stage s := by
  rw [runStages_succ 0 s h, runStages_zero]

/-- Settles O38: a stage of a key load is a round, and the completion follows the round of stage 16. -/
theorem stagesOfAKeyLoad : Obligations.StagesOfAKeyLoad := by
  refine ⟨fun _ _ => rfl, fun s i hb hf hstg hi => ⟨_, rfl, ?_⟩, fun s hb hf hstg => ⟨_, rfl, ?_⟩⟩
  · have hround : roundIndex s = i := roundIndex_of_stg_toNat hstg
    have hlast : s.stg ≠ 16 := fun h16 => hi (by
      rw [h16] at hstg
      exact BitVec.eq_of_toNat_eq (Nat.succ.inj hstg).symm)
    rw [runStages_one hb, stage_keyLoad s hf, keyStage_round s hlast]
    subst hround
    exact ⟨rfl, rfl, subkeyAt_keyRound_same s, fun _ => subkeyAt_keyRound_of_ne, rfl, rfl⟩
  · have hround : roundIndex s = 15 := roundIndex_of_stg_toNat (by rw [hstg]; rfl)
    have hamount : shiftAt (roundIndex s) = 1 := by rw [hround]; rfl
    have hwritten := subkeyAt_keyRound_same s
    rw [keyRound_c, keyRound_d, hamount, hround] at hwritten
    rw [runStages_one hb, stage_keyLoad s hf, keyStage_last s hstg]
    exact ⟨hwritten, fun _ hj => subkeyAt_keyRound_of_ne (hround ▸ hj), rfl, rfl, rfl, rfl, rfl, rfl, rfl⟩

/-! ### The rounds of a key load -/

/-- The stage number after `n` rounds. -/
theorem keyRounds_stg (key : Key) (s : State) (n : Nat) :
    (keyRounds n (keyStart key s)).stg = BitVec.ofNat 5 (n + 1) := by
  induction n with
  | zero => rfl
  | succ n ih => rw [keyRounds, keyRound_stg, ih, stg_succ]

/-- Round `n` is the one that follows `n` rounds. -/
theorem roundIndex_keyRounds (key : Key) (s : State) {n : Nat} (h : n < 16) :
    roundIndex (keyRounds n (keyStart key s)) = BitVec.ofNat 4 n :=
  roundIndex_of_stg _ n h (keyRounds_stg key s n)

/-- A half turned by `n` rounds and then by round `n` is turned by `n + 1` rounds. -/
theorem rotl28_rotateLeft_turnedBy (x : KeyHalf) {n : Nat} (h : n < 16) :
    rotl28 (x.rotateLeft (turnedBy n)) (shiftAt (BitVec.ofNat 4 n)) = x.rotateLeft (turnedBy (n + 1)) := by
  have hamount : shiftAt (BitVec.ofNat 4 n) = shifts[n] := by
    simp only [shiftAt, BitVec.toNat_ofNat, Nat.mod_eq_of_lt h]
  have hlt : shifts[n] < 28 := shift_lt _ (by simp)
  rw [hamount, rotl28_eq_rotateLeft _ _ hlt, rotateLeft_rotateLeft, turnedBy_succ h]

/-- Whole turns leave a half (R109). -/
theorem rotateLeft_wholeTurns (x : KeyHalf) {n : Nat} (h : n % 28 = 0) : x.rotateLeft n = x := by
  apply BitVec.eq_of_getLsbD_eq
  intro i hi
  rw [getLsbD_rotateLeft_mod _ _ _ hi, h, Nat.sub_zero, Nat.add_mod_right, Nat.mod_eq_of_lt hi]

/-- The registers after `n` rounds: the key's halves turned by the first `n` amounts (R109). -/
theorem keyRounds_halves (key : Key) (s : State) {n : Nat} (h : n ≤ 16) :
    (keyRounds n (keyStart key s)).c = (keyHalves key).1.rotateLeft (turnedBy n) ∧
    (keyRounds n (keyStart key s)).d = (keyHalves key).2.rotateLeft (turnedBy n) := by
  induction n with
  | zero => exact ⟨(rotateLeft_wholeTurns _ rfl).symm, (rotateLeft_wholeTurns _ rfl).symm⟩
  | succ n ih =>
    obtain ⟨hc, hd⟩ := ih (by omega)
    rw [keyRounds, keyRound_c, keyRound_d, roundIndex_keyRounds key s h, hc, hd, rotl28_rotateLeft_turnedBy _ h,
      rotl28_rotateLeft_turnedBy _ h]
    exact ⟨rfl, rfl⟩

/-- Settles O31: each round turns the halves by its own amount, and the sixteen amounts are a whole turn. -/
theorem scheduleClosedForm : Obligations.ScheduleClosedForm := by
  refine ⟨fun key s n h => keyRounds_halves key s h, fun key s => ?_, subkeyAt_schedule_eq_selectSubkey⟩
  obtain ⟨hc, hd⟩ := keyRounds_halves key s (Nat.le_refl 16)
  have hturn : turnedBy 16 % 28 = 0 := by decide
  exact ⟨hc.trans (rotateLeft_wholeTurns _ hturn), hd.trans (rotateLeft_wholeTurns _ hturn)⟩

/-- The entry that round `n` writes is the key's (R108). -/
theorem subkeyAt_keyRounds_written (key : Key) (s : State) {n : Nat} (h : n < 16) :
    subkeyAt (keyRounds (n + 1) (keyStart key s)).ks (BitVec.ofNat 4 n) =
      subkeyAt (schedule key) (BitVec.ofNat 4 n) := by
  obtain ⟨hc, hd⟩ := keyRounds_halves key s (n := n + 1) h
  rw [keyRounds] at hc hd ⊢
  rw [← roundIndex_keyRounds key s h, subkeyAt_keyRound_same, hc, hd, roundIndex_keyRounds key s h,
    subkeyAt_schedule_eq_selectSubkey, BitVec.toNat_ofNat, Nat.mod_eq_of_lt h]

/-- After `n` rounds the first `n` entries of `KS` are the key's (R107, R108). -/
theorem subkeyAt_keyRounds (key : Key) (s : State) {n : Nat} (h : n ≤ 16) {i : SubkeyIndex} (hi : i.toNat < n) :
    subkeyAt (keyRounds n (keyStart key s)).ks i = subkeyAt (schedule key) i := by
  induction n with
  | zero => exact absurd hi (Nat.not_lt_zero _)
  | succ n ih =>
    by_cases hin : i = BitVec.ofNat 4 n
    · rw [hin]
      exact subkeyAt_keyRounds_written key s h
    · have hne : i.toNat ≠ n := fun heq => hin (by rw [← heq, BitVec.ofNat_toNat, BitVec.setWidth_eq])
      rw [keyRounds, subkeyAt_keyRound_of_ne (by rwa [roundIndex_keyRounds key s h])]
      exact ih (by omega) (by omega)

/-- The rounds change `C`, `D`, `KS` and `STG` only (R107). -/
theorem keyRounds_frame (n : Nat) (s : State) :
    ∃ c d ks stg, keyRounds n s = { s with c := c, d := d, ks := ks, stg := stg } := by
  induction n with
  | zero => exact ⟨_, _, _, _, rfl⟩
  | succ n ih =>
    obtain ⟨c, d, ks, stg, h⟩ := ih
    rw [keyRounds, h]
    exact ⟨_, _, _, _, rfl⟩

end Sys2Proof.Machine
end

section
/-!
PROOFS. The stages compute the command (R5, R108, R123): each command's acceptance and its stages, one after another, end
in the state of `exec`.
-/

namespace Sys2Proof.Machine

/-! ### Stages one after another -/

/-- A sequence of states in which a stage of a busy core leads from each to the next is the run of stages. -/
theorem runStages_eq_of_stages {f : Nat → State} {m : Nat}
    (h : ∀ n, n < m → (f n).busy = true ∧ stage (f n) = f (n + 1)) : runStages m (f 0) = f m := by
  induction m with
  | zero => rfl
  | succ m ih =>
    obtain ⟨hb, hs⟩ := h m (Nat.lt_succ_self m)
    rw [runStages_add, ih fun n hn => h n (by omega), runStages_one hb, hs]

/-- A stage number below the last stage is not the last stage's. -/
theorem ofNat_ne_of_lt {m n : Nat} (h : n < m) (hm : m < 32) : BitVec.ofNat 5 n ≠ BitVec.ofNat 5 m := fun heq => by
  have hnat := congrArg BitVec.toNat heq
  rw [BitVec.toNat_ofNat, BitVec.toNat_ofNat, Nat.mod_eq_of_lt hm, Nat.mod_eq_of_lt (by omega)] at hnat
  omega

/-! ### A key load -/

/-- A stage before the sixteenth is one more round (R107). -/
theorem stage_keyRounds (key : Key) (s : State) {n : Nat} (h : n < 15) :
    (keyRounds n (keyStart key s)).busy = true ∧
    stage (keyRounds n (keyStart key s)) = keyRounds (n + 1) (keyStart key s) := by
  obtain ⟨_, _, _, _, hframe⟩ := keyRounds_frame n (keyStart key s)
  have hlast : (keyRounds n (keyStart key s)).stg ≠ 16 := by
    rw [keyRounds_stg]; exact ofNat_ne_of_lt (m := 16) (by omega) (by decide)
  refine ⟨by rw [hframe]; rfl, ?_⟩
  rw [stage_keyLoad _ (by rw [hframe]; rfl), keyStage_round _ hlast, keyRounds]

/-- The sixteenth stage is the last round and the completion (R108). -/
theorem runStages_sixteen_keyStart (key : Key) (s : State) :
    runStages 16 (keyStart key s) = keyDone (keyRounds 16 (keyStart key s)) := by
  have hrounds : runStages 15 (keyStart key s) = keyRounds 15 (keyStart key s) :=
    runStages_eq_of_stages (f := fun n => keyRounds n (keyStart key s)) fun _ h => stage_keyRounds key s h
  obtain ⟨_, _, _, _, hframe⟩ := keyRounds_frame 15 (keyStart key s)
  rw [runStages_add 15 1, hrounds, runStages_one (by rw [hframe]; rfl), stage_keyLoad _ (by rw [hframe]; rfl),
    keyStage_last _ (keyRounds_stg key s 15)]
  rfl

/-- After sixteen rounds `KS` is the schedule of the key (R108). -/
theorem keyRounds_sixteen_ks (key : Key) (s : State) : (keyRounds 16 (keyStart key s)).ks = schedule key := by
  apply schedule_ext
  intro i
  exact subkeyAt_keyRounds key s (Nat.le_refl 16) i.isLt

/-- The seventeen stages of a key load end as LOADKEY does (R108). -/
theorem runStages_keyStart (key : Key) (s : State) :
    runStages 17 (keyStart key s) = keyDone { s with ks := schedule key, flight := .keyLoad } := by
  rw [runStages_add 16 1, runStages_sixteen_keyStart, runStages_idle 1 _ rfl]
  obtain ⟨_, _, ks, _, hframe⟩ := keyRounds_frame 16 (keyStart key s)
  have hks := keyRounds_sixteen_ks key s
  rw [hframe] at hks ⊢
  obtain rfl : ks = schedule key := hks
  rfl

/-! ### A block command -/

/-- The state after `n` rounds of a block command: `L` and `R` are the halves of the rounds done (R122). -/
theorem blockRounds_eq (dir : Bool) (block : Block) (s : State) {n : Nat} (h : n ≤ 16) :
    blockRounds n (blockStart dir block s) = { blockStart dir block s with
      l := (cryptRounds s.ks dir n (initialHalves block)).1
      r := (cryptRounds s.ks dir n (initialHalves block)).2
      stg := BitVec.ofNat 5 (n + 1) } := by
  induction n with
  | zero => rfl
  | succ n ih =>
    rw [blockRounds, ih (by omega), blockRound, roundIndex_of_stg _ n h rfl, stg_succ]
    rfl

/-- A stage before the seventeenth is one more round (R122). -/
theorem stage_blockRounds (dir : Bool) (block : Block) (s : State) {n : Nat} (h : n < 16) :
    (blockRounds n (blockStart dir block s)).busy = true ∧
    stage (blockRounds n (blockStart dir block s)) = blockRounds (n + 1) (blockStart dir block s) := by
  have heq := blockRounds_eq dir block s (n := n) (by omega)
  have hlast : (blockRounds n (blockStart dir block s)).stg ≠ 17 := by
    rw [heq]; exact ofNat_ne_of_lt (m := 17) (by omega) (by decide)
  refine ⟨by rw [heq]; rfl, ?_⟩
  rw [stage_block _ (by rw [heq]; rfl), blockStage_round _ hlast, blockRounds]

/-- The seventeen stages of a block command end as the command does (R123). -/
theorem runStages_blockStart (dir : Bool) (block : Block) (s : State) :
    runStages 17 (blockStart dir block s) = blockDone (crypt block s.ks dir) { s with flight := .block } := by
  have hrounds : runStages 16 (blockStart dir block s) = blockRounds 16 (blockStart dir block s) :=
    runStages_eq_of_stages (f := fun n => blockRounds n (blockStart dir block s)) fun _ h =>
      stage_blockRounds dir block s h
  rw [runStages_add 16 1, hrounds, blockRounds_eq dir block s (Nat.le_refl 16), runStages_one rfl, stage_block _ rfl,
    blockStage_last _ rfl]
  rfl

/-! ### Every command -/

/-- A command without stages gives its settled response in one stage (R22, R52). -/
theorem runStages_answerStart (n : Nat) (status : Status) (data : BitVec 64) (s : State) :
    runStages (n + 1) (answerStart status data s) = answer status data s := by
  rw [runStages_succ n _ rfl, stage_answer _ _ rfl, runStages_idle n _ rfl]
  rfl

/-- A block command and its stages, with a schedule loaded or not (R117, R118, R146). -/
theorem blockCommand_eq_runStages (dir : Bool) (block : Block) (s : State) : blockCommand dir block s =
    runStages 17 (if s.kvalid then blockStart dir block s else answerStart .errNoKey 0 s) := by
  rw [blockCommand]
  split
  · exact (runStages_blockStart dir block s).symm
  · exact (runStages_answerStart 16 _ _ s).symm

/-- Settles O40: a key load and a block command by their rounds, every other command by its one stage. -/
theorem stagesComputeTheCommand : Obligations.StagesComputeTheCommand := by
  intro i s
  cases i with
  | loadkey key => exact congrArg Host.Outcome.next (runStages_keyStart key s).symm
  | encrypt block => exact congrArg Host.Outcome.next (blockCommand_eq_runStages false block s)
  | decrypt block => exact congrArg Host.Outcome.next (blockCommand_eq_runStages true block s)
  | rdsk idx =>
    rw [exec_rdsk, accept]
    split
    · exact congrArg Host.Outcome.next (runStages_answerStart 16 _ _ s).symm
    · exact congrArg Host.Outcome.next (runStages_answerStart 16 _ _ s).symm
  | reserved0 | reserved5 | reserved6 | reserved7 =>
    exact congrArg Host.Outcome.next (runStages_answerStart 16 .errIllOp 0 s).symm

end Sys2Proof.Machine
end

section
/-!
PROOFS. The two directions of the block cipher (spec `45_block_cipher.md`): the rounds of one direction undo those of the
other (R125), with equal subkeys the two are one function (R126), and two block commands in a row are `crypt` twice.
-/

namespace Sys2Proof.Machine

/-! ### The permuted halves at both ends -/

/-- The initial permutation takes the final one back and leaves the halves exchanged, as the preoutput has them (R67, R120). -/
theorem initialHalves_finalBlock (lr : Half × Half) : initialHalves (finalBlock lr) = swapHalves lr := by
  rw [initialHalves, finalBlock, permute_tableIP_tableFP]
  exact Prod.ext (extractLsb'_append_high lr.2 lr.1) (extractLsb'_append_low lr.2 lr.1)

/-- The final permutation of the block's own halves, in the order of the preoutput, is the block (R67, R120). -/
theorem finalBlock_swapHalves_initialHalves (block : Block) : finalBlock (swapHalves (initialHalves block)) = block := by
  have hjoin : (initialHalves block).1 ++ (initialHalves block).2 = permute tableIP block :=
    append_extractLsb' (n := 32) (m := 32) (permute tableIP block)
  rw [finalBlock, swapHalves, hjoin, permute_tableFP_tableIP]

/-! ### The block function -/

/-- The other direction starts from the exchanged halves of the last round, and its sixteen rounds go back to the first. -/
theorem crypt_not_crypt (block : Block) (ks : Schedule) (dir : Bool) : crypt (crypt block ks dir) ks (!dir) = block := by
  rw [crypt, crypt, initialHalves_finalBlock, cryptRounds_back ks dir _ 16 (Nat.le_refl 16), Nat.sub_self, cryptRounds,
    finalBlock_swapHalves_initialHalves]

/-- With equal subkeys the order in which the rounds take them does not matter (R126). -/
theorem crypt_dir_irrelevant {ks : Schedule} {k : Subkey} (h : ∀ i : SubkeyIndex, subkeyAt ks i = k) (block : Block)
    (dir dir' : Bool) : crypt block ks dir = crypt block ks dir' := by
  rw [crypt, crypt, cryptRounds_congr (fun _ _ => (h _).trans (h _).symm) 16 (Nat.le_refl 16)]

/-- So applying it twice gives the block back (R126). -/
theorem crypt_crypt_of_equal_subkeys {ks : Schedule} {k : Subkey} (h : ∀ i : SubkeyIndex, subkeyAt ks i = k)
    (block : Block) (dir : Bool) : crypt (crypt block ks dir) ks dir = block := by
  rw [crypt_dir_irrelevant h _ dir (!dir), crypt_not_crypt]

/-! ### The block commands -/

/-- The block command of a direction is not a key load. -/
theorem blockInstr_ne_loadkey (dir : Bool) (block : Block) (key : Key) :
    (if dir then .decrypt block else .encrypt block : Instr) ≠ .loadkey key := by
  cases dir <;> simp

/-- ENCRYPT and DECRYPT are one operation with a direction (R119). -/
theorem exec_blockInstr (dir : Bool) (block : Block) (s : State) :
    exec (if dir then .decrypt block else .encrypt block) s = .next (blockCommand dir block s) := by
  cases dir <;> rfl

/-- So is their acceptance (R121, R146). -/
theorem accept_blockInstr (dir : Bool) (block : Block) (s : State) :
    accept (if dir then .decrypt block else .encrypt block) s =
      if s.kvalid then blockStart dir block s else answerStart .errNoKey 0 s := by
  cases dir <;> rfl

/-- A block command answers `crypt` under the loaded schedule (R117, R118). -/
theorem blockCommand_rsp (dir : Bool) (block : Block) {s : State} (h : s.kvalid = true) :
    (blockCommand dir block s).rsp = responseWord .ok (crypt block s.ks dir) := by
  rw [blockCommand_of_kvalid _ _ _ h, blockDone_rsp]

/-- A block command on the data of another answers `crypt` twice, under the one schedule that both meet. -/
theorem blockCommand_blockCommand_rsp (dir dir' : Bool) (block : Block) {s : State} (h : s.kvalid = true) :
    (blockCommand dir' (responseData (blockCommand dir block s).rsp) (blockCommand dir block s)).rsp =
      responseWord .ok (crypt (crypt block s.ks dir) s.ks dir') := by
  obtain ⟨hks, hkv⟩ := exec_store_frame (exec_blockInstr dir block s) (blockInstr_ne_loadkey dir block)
  rw [blockCommand_rsp dir' _ (hkv.trans h), blockCommand_rsp dir block h, responseData_responseWord, hks]

/-- Settles O34: the rounds of each direction undo those of the other, and after a LOADKEY two block commands in a row
are those two directions. -/
theorem decryptUndoesEncrypt : Obligations.DecryptUndoesEncrypt := by
  refine ⟨fun block ks => crypt_not_crypt block ks false, fun block ks => crypt_not_crypt block ks true,
    fun key block s => ⟨_, _, _, exec_loadkey key s, exec_encrypt _ _, exec_decrypt _ _, ?_⟩,
    fun key block s => ⟨_, _, _, exec_loadkey key s, exec_decrypt _ _, exec_encrypt _ _, ?_⟩⟩
  · rw [blockCommand_blockCommand_rsp false true block rfl]
    exact congrArg _ (crypt_not_crypt block _ false)
  · rw [blockCommand_blockCommand_rsp true false block rfl]
    exact congrArg _ (crypt_not_crypt block _ true)

/-- Settles O36: with equal subkeys the direction does not matter, so the function that the other direction undoes
undoes itself; the commands answer that function. -/
theorem equalSubkeysMakeOneDirection : Obligations.EqualSubkeysMakeOneDirection := by
  intro ks k hk
  refine ⟨fun block => crypt_dir_irrelevant hk block false true,
    fun block => crypt_crypt_of_equal_subkeys hk block false, ?_, ?_⟩
  · rintro block s t u rfl hkv ht hu
    cases ht
    cases hu
    rw [blockCommand_rsp false block hkv, blockCommand_rsp true block hkv, crypt_dir_irrelevant hk block false true]
  · rintro block s rfl hkv
    refine ⟨_, _, exec_encrypt _ _, exec_encrypt _ _, ?_⟩
    rw [blockCommand_blockCommand_rsp false false block hkv, crypt_crypt_of_equal_subkeys hk]

end Sys2Proof.Machine
end

section
/-!
PROOFS. The words of the block commands and each stage as the spec states it (R121, R122).
-/

namespace Sys2Proof

/-- `op[2:1]` are bits 66:65 of the word (R48). -/
theorem extractLsb'_opField (w : CommandWord) : (opField w).extractLsb' 1 2 = w.extractLsb' 65 2 := by
  apply BitVec.eq_of_getLsbD_eq
  intro i hi
  rw [opField, BitVec.getLsbD_extractLsb', BitVec.getLsbD_extractLsb', BitVec.getLsbD_extractLsb',
    show 64 + (1 + i) = 65 + i by omega, decide_eq_true (show 1 + i < 3 by omega), Bool.true_and]

/-- `op[0]` is bit 64 of the word (R48). -/
theorem getLsbD_opField_zero (w : CommandWord) : (opField w).getLsbD 0 = w.getLsbD 64 := by
  rw [opField, BitVec.getLsbD_extractLsb']
  rfl

/-- A word with `op[2:1] = 01` is a block command whose direction is `op[0]` (R49, R50). -/
theorem decode_of_blockOpcode {w : CommandWord} (h : w.extractLsb' 65 2 = 0b01#2) :
    decode w = if w.getLsbD 64 then .decrypt (argField w) else .encrypt (argField w) := by
  have hop : ∀ op : BitVec 3, op.extractLsb' 1 2 = 0b01#2 → op = if op.getLsbD 0 then 0b011#3 else 0b010#3 := by decide
  have hw := hop (opField w) ((extractLsb'_opField w).trans h)
  rw [getLsbD_opField_zero] at hw
  rw [decode, hw]
  cases w.getLsbD 64 <;> rfl

end Sys2Proof

namespace Sys2Proof.Machine

/-- A stage with the number of a round, 1 to 16, is not the last one, so it does a round (R122). -/
theorem blockStage_of_round {s : State} {n : SubkeyIndex} (h : s.stg.toNat = n.toNat + 1) :
    blockStage s = blockRound s := by
  apply blockStage_round
  intro hlast
  have hn : n.toNat = 16 := Nat.succ.inj (h.symm.trans (congrArg BitVec.toNat hlast))
  exact absurd n.isLt (by omega)

/-- Settles O39: a word with `op[2:1] = 01` is a block command in the direction of its bit 64, and a stage before the last
is a round. -/
theorem stagesOfABlockCommand : Obligations.StagesOfABlockCommand := by
  refine ⟨fun w s hw hk => ?_, fun w s hw hk => ?_, fun s n hb hf hstg => ?_⟩
  · rw [decode_of_blockOpcode hw, accept_blockInstr, if_pos hk]
    rfl
  · rw [decode_of_blockOpcode hw, exec_blockInstr, blockCommand_of_not_kvalid _ _ _ hk]
    exact ⟨_, rfl, rfl, rfl⟩
  · rw [runStages_one hb, stage_block s hf, blockStage_of_round hstg, blockRound, roundIndex_of_stg_toNat hstg]
    rfl

end Sys2Proof.Machine
end

section
/-!
PROOFS. The padded length and the checks of the buffer operations (R130, R142): on whole blocks DECBUF makes the checks of
ENCBUF, and an operation is its checks followed by the block loop.
-/

namespace Sys2Proof.Machine

/-! ### The padded length -/

theorem padlen_zero : padlen 0 = 8 := rfl

/-- Away from 0 the padded length rounds up to whole blocks. -/
theorem padlen_of_pos {n : Nat} (h : 0 < n) : padlen n = (n + 7) / 8 * 8 := by
  rw [padlen, if_neg h.ne']

theorem padlen_pos (n : Nat) : 0 < padlen n := by
  obtain rfl | h := n.eq_zero_or_pos
  · exact Nat.succ_pos 7
  · rw [padlen_of_pos h]; omega

theorem padlen_mod_eight (n : Nat) : padlen n % 8 = 0 := by
  obtain rfl | h := n.eq_zero_or_pos
  · rfl
  · rw [padlen_of_pos h]; exact Nat.mul_mod_left _ 8

theorem le_padlen (n : Nat) : n ≤ padlen n := by
  obtain rfl | h := n.eq_zero_or_pos
  · exact Nat.zero_le _
  · rw [padlen_of_pos h]; omega

/-- A positive multiple of 8 that reaches `n` reaches the padded length. -/
theorem padlen_le_of_multiple {n m : Nat} (hpos : 0 < m) (h8 : m % 8 = 0) (h : n ≤ m) : padlen n ≤ m := by
  obtain rfl | hn := n.eq_zero_or_pos
  · rw [padlen_zero]; omega
  · rw [padlen_of_pos hn]; omega

theorem padlen_le (n : Nat) : padlen n ≤ n + 8 := by
  obtain rfl | h := n.eq_zero_or_pos
  · exact Nat.le_refl 8
  · rw [padlen_of_pos h]; omega

/-- The padding adds nothing to whole blocks, and to nothing else (R130). -/
theorem padlen_eq_self_iff (n : Nat) : padlen n = n ↔ 0 < n ∧ n % 8 = 0 := by
  refine ⟨fun h => ⟨h ▸ padlen_pos n, h ▸ padlen_mod_eight n⟩, fun ⟨hpos, h8⟩ => ?_⟩
  exact Nat.le_antisymm (padlen_le_of_multiple hpos h8 (Nat.le_refl n)) (le_padlen n)

/-- Settles O51: the bounds, the minimality, the fixed points and the two cases of the definition. -/
theorem padlenIsTheSmallestMultiple : Obligations.PadlenIsTheSmallestMultiple :=
  ⟨fun n => ⟨padlen_pos n, padlen_mod_eight n, le_padlen n, padlen_le n⟩,
    fun _ _ hpos h8 h => padlen_le_of_multiple hpos h8 h, padlen_eq_self_iff, padlen_zero, fun _ h => padlen_of_pos h⟩

/-! ### The checks -/

theorem encbufCheck_of_not_kvalid (ok : Bool) : encbufCheck false ok = some .invalidParameterNoKey := rfl

theorem encbufCheck_of_not_allocOk : encbufCheck true false = some .allocationFailure := rfl

theorem encbufCheck_pass : encbufCheck true true = none := rfl

theorem decbufCheck_of_length_zero {bytes : List Byte} (h : bytes.length = 0) (kvalid ok : Bool) :
    decbufCheck bytes kvalid ok = some .invalidLengthZero := by
  rw [decbufCheck, if_pos h]

theorem decbufCheck_of_length_mod {bytes : List Byte} (h : bytes.length ≠ 0) (h8 : bytes.length % 8 ≠ 0)
    (kvalid ok : Bool) : decbufCheck bytes kvalid ok = some .invalidLengthNotMultipleOf8 := by
  rw [decbufCheck, if_neg h, if_pos h8]

/-- Past its length checks DECBUF makes those of ENCBUF (R142). -/
theorem decbufCheck_of_wholeBlocks {bytes : List Byte} (h : bytes.length ≠ 0) (h8 : bytes.length % 8 = 0)
    (kvalid ok : Bool) : decbufCheck bytes kvalid ok = encbufCheck kvalid ok := by
  rw [decbufCheck, if_neg h, if_neg (not_not.2 h8), encbufCheck]

/-! ### An operation after its checks -/

theorem encbuf_of_error {kvalid ok : Bool} {e : BufError} (h : encbufCheck kvalid ok = some e) (ks : Schedule)
    (bytes : List Byte) : encbuf kvalid ks bytes ok = .error e := by
  rw [encbuf, h]

theorem encbuf_of_pass {kvalid ok : Bool} (h : encbufCheck kvalid ok = none) (ks : Schedule) (bytes : List Byte) :
    encbuf kvalid ks bytes ok = .ok (codecOutput ks false (padded bytes)) (padlen bytes.length) := by
  rw [encbuf, h]

theorem decbuf_of_error {kvalid ok : Bool} {bytes : List Byte} {e : BufError} (h : decbufCheck bytes kvalid ok = some e)
    (ks : Schedule) : decbuf kvalid ks bytes ok = .error e := by
  rw [decbuf, h]

theorem decbuf_of_pass {kvalid ok : Bool} {bytes : List Byte} (h : decbufCheck bytes kvalid ok = none) (ks : Schedule) :
    decbuf kvalid ks bytes ok = .ok (codecOutput ks true bytes) bytes.length := by
  rw [decbuf, h]

/-- Settles O56: one check decides each case; a DECBUF of whole blocks has the cases of ENCBUF. -/
theorem firstFailingCheckIsReported : Obligations.FirstFailingCheckIsReported := by
  intro kvalid ok ks bytes
  refine ⟨fun h => decbuf_of_error (decbufCheck_of_length_zero h _ _) ks,
    fun h h8 => decbuf_of_error (decbufCheck_of_length_mod h h8 _ _) ks, ?_, ?_, ?_, ?_, ?_, ?_⟩
  · rintro h h8 rfl
    exact decbuf_of_error ((decbufCheck_of_wholeBlocks h h8 _ _).trans (encbufCheck_of_not_kvalid ok)) ks
  · rintro h h8 rfl rfl
    exact decbuf_of_error ((decbufCheck_of_wholeBlocks h h8 _ _).trans encbufCheck_of_not_allocOk) ks
  · rintro h h8 rfl rfl
    exact ⟨_, decbuf_of_pass ((decbufCheck_of_wholeBlocks h h8 _ _).trans encbufCheck_pass) ks⟩
  · rintro rfl
    exact encbuf_of_error (encbufCheck_of_not_kvalid ok) ks bytes
  · rintro rfl rfl
    exact encbuf_of_error encbufCheck_of_not_allocOk ks bytes
  · rintro rfl rfl
    exact ⟨_, encbuf_of_pass encbufCheck_pass ks bytes⟩

end Sys2Proof.Machine
end

section
/-!
PROOFS. The block loop of the buffer operations (R131, R136): each block of the output is `crypt` of that block of the
source, so the loop in the other direction gives the source back, and DECBUF and ENCBUF undo each other (R139).
-/

namespace Sys2Proof.Machine

/-! ### The blocks of a buffer -/

/-- A block store leaves a block apart from it. -/
theorem memRead_memWrite_apart {buf : List Byte} {a a' : Nat} (v : Block) (h : a + 8 ≤ buf.length)
    (hapart : a' + 8 ≤ a ∨ a + 8 ≤ a') : memRead (memWrite buf a v) a' = memRead buf a' :=
  memRead_congr fun _ _ => byteAt_memWrite_outside v h (by omega)

/-- Two buffers of the same number of whole blocks are equal when their blocks are. -/
theorem buffer_ext_blocks {x y : List Byte} (hl : x.length = y.length) (h8 : x.length % 8 = 0)
    (h : ∀ b, 8 * b + 8 ≤ x.length → memRead x (8 * b) = memRead y (8 * b)) : x = y := by
  refine buffer_ext hl fun j hj => ?_
  have hblock := congrArg (blockByte · (j % 8)) (h (j / 8) (by omega))
  have hlt : j % 8 < 8 := Nat.mod_lt j (by decide)
  rwa [blockByte_memRead _ _ _ hlt, blockByte_memRead _ _ _ hlt, Nat.div_add_mod] at hblock

/-! ### The block loop -/

/-- One turn of the loop writes its own block of the output. -/
theorem memRead_codecBlock (ks : Schedule) (dir : Bool) (source : List Byte) {out : List Byte} {b : Nat}
    (h : 8 * b + 8 ≤ out.length) (c : Nat) : memRead (codecBlock ks dir source out b) (8 * c) =
      if c = b then crypt (memRead source (8 * c)) ks dir else memRead out (8 * c) := by
  rw [codecBlock]
  split
  · next hc => rw [hc, memRead_memWrite _ h]
  · next hc => exact memRead_memWrite_apart _ h (by omega)

@[simp] theorem codecBlock_length (ks : Schedule) (dir : Bool) (source out : List Byte) (b : Nat) :
    (codecBlock ks dir source out b).length = out.length := memWrite_length _ _ _

/-- The loop writes the blocks of its indices, in any order and however often, and no other block. -/
theorem memRead_foldl_codecBlock (ks : Schedule) (dir : Bool) (source : List Byte) (order : List Nat) (c : Nat)
    (out : List Byte) (h : ∀ b ∈ order, 8 * b + 8 ≤ out.length) :
    memRead (order.foldl (codecBlock ks dir source) out) (8 * c) =
      if c ∈ order then crypt (memRead source (8 * c)) ks dir else memRead out (8 * c) := by
  induction order generalizing out with
  | nil => rfl
  | cons b order ih =>
    rw [List.foldl_cons, ih _ fun b' hb' => by rw [codecBlock_length]; exact h b' (List.mem_cons_of_mem b hb'),
      memRead_codecBlock ks dir source (h b List.mem_cons_self)]
    by_cases hc : c ∈ order <;> simp [hc]

theorem foldl_codecBlock_length (ks : Schedule) (dir : Bool) (source : List Byte) (order : List Nat) (out : List Byte) :
    (order.foldl (codecBlock ks dir source) out).length = out.length := by
  induction order generalizing out with
  | nil => rfl
  | cons b order ih => rw [List.foldl_cons, ih, codecBlock_length]

@[simp] theorem codecBlocks_length (ks : Schedule) (dir : Bool) (source : List Byte) (order : List Nat) :
    (codecBlocks ks dir source order).length = source.length := by
  rw [codecBlocks, foldl_codecBlock_length, newBuffer, List.length_replicate]

@[simp] theorem codecOutput_length (ks : Schedule) (dir : Bool) (source : List Byte) :
    (codecOutput ks dir source).length = source.length := codecBlocks_length _ _ _ _

/-- A block of the output is `crypt` of that block of the source (R131, R136). -/
theorem memRead_codecOutput (ks : Schedule) (dir : Bool) {source : List Byte} {b : Nat} (h : 8 * b + 8 ≤ source.length) :
    memRead (codecOutput ks dir source) (8 * b) = crypt (memRead source (8 * b)) ks dir := by
  have hinside : ∀ c ∈ List.range (source.length / 8), 8 * c + 8 ≤ (newBuffer source.length).length := by
    intro c hc
    have hlt := List.mem_range.1 hc
    rw [newBuffer, List.length_replicate]
    omega
  rw [codecOutput, codecBlocks, memRead_foldl_codecBlock _ _ _ _ _ _ hinside, if_pos (List.mem_range.2 (by omega))]

/-- The loop in the other direction gives whole blocks back, because `crypt` does (R125). -/
theorem codecOutput_not_codecOutput (ks : Schedule) (dir : Bool) {source : List Byte} (h8 : source.length % 8 = 0) :
    codecOutput ks (!dir) (codecOutput ks dir source) = source := by
  apply buffer_ext_blocks (by simp) (by simpa using h8)
  intro b hb
  rw [codecOutput_length, codecOutput_length] at hb
  rw [memRead_codecOutput _ _ (by rwa [codecOutput_length]), memRead_codecOutput _ _ hb, crypt_not_crypt]

/-! ### The padded buffer -/

@[simp] theorem padded_length (bytes : List Byte) : (padded bytes).length = padlen bytes.length := by
  rw [padded, List.length_append, List.length_replicate, Nat.add_sub_cancel' (le_padlen _)]

/-- Whole blocks are not padded. -/
theorem padded_of_wholeBlocks {bytes : List Byte} (h : padlen bytes.length = bytes.length) : padded bytes = bytes := by
  rw [padded, h, Nat.sub_self, List.replicate_zero, List.append_nil]

/-! ### The round trips -/

/-- DECBUF with a schedule loaded and a buffer allocated, on whole blocks. -/
theorem decbuf_of_wholeBlocks (ks : Schedule) {bytes : List Byte} (hpos : 0 < bytes.length) (h8 : bytes.length % 8 = 0) :
    decbuf true ks bytes true = .ok (codecOutput ks true bytes) bytes.length :=
  decbuf_of_pass ((decbufCheck_of_wholeBlocks hpos.ne' h8 _ _).trans encbufCheck_pass) ks

/-- DECBUF of what ENCBUF returns is the padded buffer. -/
theorem decbuf_encbuf (ks : Schedule) (bytes : List Byte) :
    ∃ out, encbuf true ks bytes true = .ok out (padlen bytes.length) ∧
      decbuf true ks out true = .ok (padded bytes) (padlen bytes.length) := by
  have hlen : (codecOutput ks false (padded bytes)).length = padlen bytes.length := by simp
  refine ⟨_, encbuf_of_pass encbufCheck_pass ks bytes, ?_⟩
  rw [decbuf_of_wholeBlocks ks (hlen ▸ padlen_pos _) (hlen ▸ padlen_mod_eight _), hlen]
  exact congrArg (BufResult.ok · _) (codecOutput_not_codecOutput ks false (by rw [padded_length, padlen_mod_eight]))

/-- ENCBUF of what DECBUF returns is the input, which needs no padding. -/
theorem encbuf_decbuf (ks : Schedule) {bytes : List Byte} (hpos : 0 < bytes.length) (h8 : bytes.length % 8 = 0) :
    ∃ out, decbuf true ks bytes true = .ok out bytes.length ∧
      encbuf true ks out true = .ok bytes bytes.length := by
  have hlen : padlen (codecOutput ks true bytes).length = bytes.length := by
    rw [codecOutput_length, (padlen_eq_self_iff _).2 ⟨hpos, h8⟩]
  refine ⟨_, decbuf_of_wholeBlocks ks hpos h8, ?_⟩
  rw [encbuf_of_pass encbufCheck_pass, padded_of_wholeBlocks (by rw [hlen, codecOutput_length]), hlen]
  exact congrArg (BufResult.ok · _) (codecOutput_not_codecOutput ks true h8)

/-- Settles O55: DECBUF of ENCBUF is the padded buffer, which is the input for whole blocks and eight zeros for no input;
ENCBUF of DECBUF pads nothing. -/
theorem bufferRoundTrips : Obligations.BufferRoundTrips := by
  refine ⟨decbuf_encbuf, fun ks bytes hpos h8 => ?_, fun ks => decbuf_encbuf ks [], fun ks _ => encbuf_decbuf ks⟩
  have hlen : padlen bytes.length = bytes.length := (padlen_eq_self_iff _).2 ⟨hpos, h8⟩
  have htrip := decbuf_encbuf ks bytes
  rwa [padded_of_wholeBlocks hlen, hlen] at htrip

end Sys2Proof.Machine
end

section
/-!
PROOFS. The error responses (spec `60_exceptions.md`): a refused command answers its status and changes nothing but the
response registers; `ERR_NOKEY` comes from the commands that use the schedule, with none loaded, and from nothing else
(R146); `ERR_ILLOP` comes from every reserved opcode in every state (R147).
-/

namespace Sys2Proof.Machine

/-! ### A refused command -/

/-- A refused command answers its status with data 0, leaves the core ready and every register but the response's as it
was (R151, R154). -/
theorem exec_frame_of_reject {i : Instr} {s : State} {status : Status} (h : exec i s = .next (reject status s)) :
    ∃ t, exec i s = .next t ∧ t.rsp = responseWord status 0 ∧ t.rspValid = true ∧ t.busy = false ∧
      t = { s with rsp := t.rsp, rspValid := true, busy := false, flight := t.flight } :=
  ⟨_, h, rfl, rfl, rfl, rfl⟩

theorem responseWord_errNoKey_zero : responseWord .errNoKey 0 = 0x10000000000000000#66 := by decide

theorem responseWord_errIllOp_zero : responseWord .errIllOp 0 = 0x20000000000000000#66 := by decide

/-- Only `ERR_NOKEY` has the code 01 (R52). -/
theorem eq_errNoKey_of_responseStatus {status : Status} {data : BitVec 64}
    (h : responseStatus (responseWord status data) = 0b01#2) : status = .errNoKey := by
  rw [responseStatus_responseWord] at h
  cases status with
  | errNoKey => rfl
  | ok | errIllOp => exact absurd h (by decide)

/-! ### Commands that use the schedule (R146) -/

/-- The commands that R146 names: those that read the subkey store. -/
def NeedsSchedule (i : Instr) : Prop :=
  (∃ block, i = .encrypt block) ∨ (∃ block, i = .decrypt block) ∨ (∃ idx, i = .rdsk idx)

/-- With no schedule such a command enters no stage when it is accepted. -/
theorem accept_of_not_kvalid {i : Instr} {s : State} (hi : NeedsSchedule i) (hk : s.kvalid = false) :
    accept i s = answerStart .errNoKey 0 s := by
  have hno : ¬ s.kvalid = true := by rw [hk]; exact Bool.false_ne_true
  obtain ⟨_, rfl⟩ | ⟨_, rfl⟩ | ⟨_, rfl⟩ := hi <;> exact if_neg hno

/-- With no schedule such a command is refused. -/
theorem exec_of_not_kvalid {i : Instr} {s : State} (hi : NeedsSchedule i) (hk : s.kvalid = false) :
    exec i s = .next (reject .errNoKey s) := by
  obtain ⟨block, rfl⟩ | ⟨block, rfl⟩ | ⟨idx, rfl⟩ := hi
  · exact exec_encrypt_of_not_kvalid block s hk
  · exact exec_decrypt_of_not_kvalid block s hk
  · exact exec_rdsk_of_not_kvalid idx s hk

/-- With a schedule loaded such a command answers `OK` (R110, R117, R118). -/
theorem rsp_ok_of_kvalid {i : Instr} {s t : State} (hi : NeedsSchedule i) (hk : s.kvalid = true)
    (h : exec i s = .next t) : ∃ data, t.rsp = responseWord .ok data := by
  obtain ⟨block, rfl⟩ | ⟨block, rfl⟩ | ⟨idx, rfl⟩ := hi
  · rw [exec_encrypt_of_kvalid block s hk] at h; cases h; exact ⟨_, blockDone_rsp _ _⟩
  · rw [exec_decrypt_of_kvalid block s hk] at h; cases h; exact ⟨_, blockDone_rsp _ _⟩
  · rw [exec_rdsk_of_kvalid idx s hk] at h; cases h; exact ⟨_, answer_rsp _ _ _⟩

/-- LOADKEY and the reserved opcodes never answer `ERR_NOKEY`. -/
theorem needsSchedule_of_errNoKey {i : Instr} {s t : State} (h : exec i s = .next t)
    (hst : responseStatus t.rsp = 0b01#2) : NeedsSchedule i := by
  cases i with
  | encrypt block => exact .inl ⟨block, rfl⟩
  | decrypt block => exact .inr (.inl ⟨block, rfl⟩)
  | rdsk idx => exact .inr (.inr ⟨idx, rfl⟩)
  | loadkey _ =>
    cases h
    rw [keyDone_rsp] at hst
    nomatch eq_errNoKey_of_responseStatus hst
  | reserved0 | reserved5 | reserved6 | reserved7 =>
    cases h
    rw [reject_rsp] at hst
    nomatch eq_errNoKey_of_responseStatus hst

/-- `ERR_NOKEY` says that no schedule was loaded. -/
theorem not_kvalid_of_errNoKey {i : Instr} {s t : State} (h : exec i s = .next t)
    (hst : responseStatus t.rsp = 0b01#2) : s.kvalid = false := by
  rw [← Bool.not_eq_true]
  intro hk
  obtain ⟨data, hrsp⟩ := rsp_ok_of_kvalid (needsSchedule_of_errNoKey h hst) hk h
  rw [hrsp] at hst
  nomatch eq_errNoKey_of_responseStatus hst

/-- Settles O18: with no schedule the commands that need one are refused at acceptance and as a whole; with one they
answer `OK`, and the other commands answer `OK` or `ERR_ILLOP`. -/
theorem noScheduleAnswersNoKey : Obligations.NoScheduleAnswersNoKey := by
  refine ⟨fun i s hk hi => ⟨accept_of_not_kvalid hi hk, ?_⟩,
    fun i s t h hst => ⟨not_kvalid_of_errNoKey h hst, needsSchedule_of_errNoKey h hst⟩⟩
  rw [← responseWord_errNoKey_zero]
  exact exec_frame_of_reject (exec_of_not_kvalid hi hk)

/-! ### Reserved opcodes (R147) -/

/-- A reserved command is refused in every state. -/
theorem exec_of_reserved {i : Instr} (hi : i ∈ [Instr.reserved0, .reserved5, .reserved6, .reserved7]) (s : State) :
    exec i s = .next (reject .errIllOp s) := by
  simp only [List.mem_cons, List.not_mem_nil, or_false] at hi
  obtain rfl | rfl | rfl | rfl := hi <;> rfl

/-- A command with a reserved opcode is a reserved command. -/
theorem reserved_of_opcodeOf {i : Instr} (h : opcodeOf i ∈ [0b000#3, 0b101#3, 0b110#3, 0b111#3]) :
    i ∈ [Instr.reserved0, .reserved5, .reserved6, .reserved7] := by
  cases i with
  | reserved0 | reserved5 | reserved6 | reserved7 => decide
  | loadkey _ | encrypt _ | decrypt _ | rdsk _ => simp [opcodeOf] at h

/-- Settles O17: each reserved command is refused in every state, and a word decodes to a command of its opcode. -/
theorem reservedOpcodesAnswerIllegal : Obligations.ReservedOpcodesAnswerIllegal := by
  refine ⟨fun i hi s => ?_, fun w hw => reserved_of_opcodeOf ?_⟩
  · rw [← responseWord_errIllOp_zero]
    exact exec_frame_of_reject (exec_of_reserved hi s)
  · rwa [opcodeOf_decode]

end Sys2Proof.Machine
end

section
/-!
PROOFS. What a step does with the next event: the host waits with it while something is in progress (R46, R47, R172), and
takes it otherwise (R177).
-/

namespace Sys2Proof.Machine

/-! ### A quiet step -/

theorem quietStep_of_busy {s : State} (h : s.busy = true) : quietStep s = .next (stage s) := if_pos h

theorem quietStep_of_ready {s : State} (h : s.busy = false) : quietStep s = sequencerTurn s :=
  if_neg (by simp [h])

/-- With no event left a step is a quiet step. -/
theorem step_of_no_event {s : State} (h : s.program = []) : step s = quietStep s := by rw [step, h]

/-- A machine with nothing to do only ends a response pulse (R176). -/
theorem step_of_idle {s : State} (hp : s.program = []) (hb : s.busy = false) (hj : s.job = none) :
    step s = .next (endPulse s) := by
  rw [step_of_no_event hp, quietStep_of_ready hb, sequencerTurn_none s hj]

theorem sequencerTurn_next (s : State) : ∃ t, sequencerTurn s = .next t := by
  obtain ⟨_, h⟩ | ⟨_, _, _, _, h⟩ := sequencerTurn_cases s <;> exact ⟨_, h⟩

/-- A turn of the sequencer takes no event. -/
theorem sequencerTurn_program {s t : State} (h : sequencerTurn s = .next t) : t.program = s.program := by
  obtain ⟨_, h'⟩ | ⟨j, u, _, hu, h'⟩ := sequencerTurn_cases s <;> rw [h'] at h <;> cases h
  · exact endPulse_program s
  · obtain ⟨_, _, hprogram⟩ := exec_host_frame hu
    rw [takeResponse_frame]
    exact hprogram

/-! ### Waiting with an event, and taking it -/

/-- A step takes the next event when the host waits with it for nothing. -/
theorem step_takes_event {s : State} {e : Event} {rest : List Event} (hp : s.program = e :: rest)
    (hb : s.busy = true → e.waitsForReady = false) (hj : s.job ≠ none → e.waitsForOperation = false) :
    step s = runEvent e { s with program := rest } := by
  have hstep : step s = eventStep e rest s := by rw [step, hp]
  rw [hstep, eventStep, if_neg]
  simpa [Option.isSome_iff_ne_none] using And.intro hb hj

/-- Settles O8: a waiting step and a step with no event left are quiet steps, and those leave the program alone. -/
theorem hostWaitsForWhatIsInProgress : Obligations.HostWaitsForWhatIsInProgress := by
  have hturn : ∀ {s : State} {p : List Event}, s.program = p → ∃ t, sequencerTurn s = .next t ∧ t.program = p := by
    intro s p hp
    obtain ⟨t, ht⟩ := sequencerTurn_next s
    exact ⟨t, ht, (sequencerTurn_program ht).trans hp⟩
  have hstage : ∀ {s : State} {p : List Event}, s.program = p → (stage s).program = p := fun hp =>
    (stage_host_frame _).2.2.trans hp
  refine ⟨fun s e rest hp => ⟨fun hb he => ⟨?_, hstage hp⟩, fun hb hj he => ⟨?_, hstage hp⟩,
    fun hb hj he => ⟨?_, hturn hp⟩⟩, fun s hp => ⟨fun hb => ⟨?_, hstage hp⟩, fun hb _ => ⟨?_, hturn hp⟩,
    step_of_idle hp⟩⟩
  · rw [step_waiting s e rest hp (.inl ⟨hb, he⟩), quietStep_of_busy hb]
  · rw [step_waiting s e rest hp (.inr ⟨hj, he⟩), quietStep_of_busy hb]
  · rw [step_waiting s e rest hp (.inr ⟨hj, he⟩), quietStep_of_ready hb]
  · rw [step_of_no_event hp, quietStep_of_busy hb]
  · rw [step_of_no_event hp, quietStep_of_ready hb]

/-- Settles O9: in each case the host waits with the event for nothing. -/
theorem stepTakesTheOtherEvents : Obligations.StepTakesTheOtherEvents := by
  intro s rest
  have hready : ∀ {e : Event}, s.busy = false → s.busy = true → e.waitsForReady = false :=
    fun hb hb' => nomatch hb.symm.trans hb'
  exact ⟨fun hp hj => step_takes_event hp (fun _ => rfl) (absurd hj),
    fun _ _ hp => step_takes_event hp (fun _ => rfl) (fun _ => rfl),
    fun _ _ hp hb hj => step_takes_event hp (hready hb) (absurd hj),
    fun _ _ hp hb hj => step_takes_event hp (hready hb) (absurd hj),
    fun hp hb => step_takes_event hp (hready hb) (fun _ => rfl)⟩

end Sys2Proof.Machine
end

section
/-!
PROOFS. The machine as one function of the persistent state and the command word (R178).
-/

namespace Sys2Proof.Machine

/-- Every command ends with its response on the port and the core ready (R47). -/
theorem exec_responds {i : Instr} {s t : State} (h : exec i s = .next t) : t.rspValid = true ∧ t.busy = false := by
  obtain ⟨_, _, h'⟩ | ⟨_, _, _, _, h'⟩ | ⟨_, _, _, h'⟩ | ⟨_, _, _, h'⟩ := exec_cases i s <;>
    (rw [h'] at h; cases h; exact ⟨rfl, rfl⟩)

/-- The persistent state and the response that a state shows: the value of R178's function. -/
def storeAndResponse (s : State) : Bool × Schedule × ResponseWord := (s.kvalid, s.ks, s.rsp)

/-- R178 for ENCRYPT and DECRYPT. -/
theorem storeAndResponse_blockCommand (dir : Bool) (block : Block) (s : State) :
    storeAndResponse (blockCommand dir block s) =
      if s.kvalid = false then (s.kvalid, s.ks, responseWord .errNoKey 0)
      else (s.kvalid, s.ks, responseWord .ok (crypt block s.ks dir)) := by
  split
  case isTrue hk => rw [blockCommand_of_not_kvalid _ _ _ hk]; rfl
  case isFalse hk => rw [blockCommand_of_kvalid _ _ _ (Bool.eq_true_of_not_eq_false hk)]; rfl

/-- R178 for RDSK. -/
theorem storeAndResponse_rdsk {idx : SubkeyIndex} {s t : State} (h : exec (.rdsk idx) s = .next t) :
    storeAndResponse t =
      if s.kvalid = false then (s.kvalid, s.ks, responseWord .errNoKey 0)
      else (s.kvalid, s.ks, responseWord .ok ((subkeyAt s.ks idx).setWidth 64)) := by
  split
  case isTrue hk => rw [exec_rdsk_of_not_kvalid _ _ hk] at h; cases h; rfl
  case isFalse hk => rw [exec_rdsk_of_kvalid _ _ (Bool.eq_true_of_not_eq_false hk)] at h; cases h; rfl

/-- Settles O10: the fields of the word choose the command, and each command's store and response are those of R178. -/
theorem machineAsOneFunction : Obligations.MachineAsOneFunction := by
  refine ⟨fun s => ⟨resetCore_kvalid s, resetCore_ks s⟩, fun s w => ?_⟩
  obtain ⟨t, ht⟩ := exec_next (decode w) s
  refine ⟨t, ht, (exec_responds ht).1, ?_⟩
  change storeAndResponse t = _
  obtain ⟨op, arg, rfl⟩ := exists_commandWord w
  have hop : (commandWord op arg).extractLsb' 64 3 = op := opField_commandWord op arg
  have harg : (commandWord op arg).extractLsb' 0 64 = arg := argField_commandWord op arg
  have hdir : (commandWord op arg).getLsbD 64 = op.getLsbD 0 := by rw [← getLsbD_opField_zero, opField_commandWord]
  have hidx : (commandWord op arg).extractLsb' 0 4 = arg.extractLsb' 0 4 :=
    BitVec.extractLsb'_append_eq_of_add_le (by decide)
  rw [hop, harg, hdir, hidx]
  rw [decode_commandWord] at ht
  rcases opcode_cases op with rfl | rfl | rfl | rfl | rfl | rfl | rfl | rfl
  · cases ht; rfl
  · cases ht; rfl
  · cases ht; exact storeAndResponse_blockCommand false arg s
  · cases ht; exact storeAndResponse_blockCommand true arg s
  · exact storeAndResponse_rdsk ht
  · cases ht; rfl
  · cases ht; rfl
  · cases ht; rfl

end Sys2Proof.Machine
end

section
/-!
PROOFS. Runs of whole programs (R177): every step goes on (R152), the work left falls with every step until the program has
finished, and a finished machine keeps its outcome.
-/

namespace Sys2Proof.Machine

/-! ### Every step goes on -/

theorem runEvent_next (e : Event) (s : State) : ∃ t, runEvent e s = .next t := by
  cases e with
  | command w => exact exec_next (decode w) s
  | sequencerTurn => exact sequencerTurn_next s
  | reset | encbuf _ _ | decbuf _ _ | edge _ _ => exact ⟨_, rfl⟩

/-- No step stops the machine (R152). -/
theorem step_next (s : State) : ∃ t, step s = .next t := by
  obtain ⟨_, h⟩ | ⟨_, _, h⟩ | ⟨e, rest, _, _, _, h⟩ := step_cases s <;> rw [h]
  · exact ⟨_, rfl⟩
  · exact sequencerTurn_next s
  · exact runEvent_next e _

theorem State.finished_iff {s : State} : s.finished = true ↔ s.program = [] ∧ s.busy = false ∧ s.job = none := by
  simp [State.finished, and_assoc]

/-! ### The work that is left -/

/-- How many stages the command in flight still has, however the stage number wraps (R108, R123). -/
def stagesLeft (s : State) : Nat :=
  if s.busy then
    match s.flight with
    | .keyLoad => (16 - s.stg).toNat + 1
    | .block => (17 - s.stg).toNat + 1
    | .answer _ => 1
  else 0

/-- A bound on the turns that the operation in progress still takes (R132, R137). -/
def turnsLeft (s : State) : Nat :=
  match s.job with
  | some j => j.out.length - 8 * j.next + 1
  | none => 0

/-- The work left: events first, then turns of the sequencer, then stages. -/
def workLeft (s : State) : Nat ×ₗ Nat ×ₗ Nat := toLex (s.program.length, toLex (turnsLeft s, stagesLeft s))

theorem stagesLeft_keyLoad {s : State} (hb : s.busy = true) (hf : s.flight = .keyLoad) :
    stagesLeft s = (16 - s.stg).toNat + 1 := by rw [stagesLeft, if_pos hb, hf]

theorem stagesLeft_block {s : State} (hb : s.busy = true) (hf : s.flight = .block) :
    stagesLeft s = (17 - s.stg).toNat + 1 := by rw [stagesLeft, if_pos hb, hf]

theorem stagesLeft_pos {s : State} (h : s.busy = true) : 0 < stagesLeft s := by
  rw [stagesLeft, if_pos h]
  split <;> exact Nat.succ_pos _

/-- A stage number that is not yet the last comes one nearer to it. -/
theorem toNat_sub_succ_lt {last stg : BitVec 5} (h : stg ≠ last) : (last - (stg + 1)).toNat < (last - stg).toNat := by
  bv_omega

/-- Each stage of a busy core leaves fewer. -/
theorem stagesLeft_stage_lt {s : State} (hb : s.busy = true) : stagesLeft (stage s) < stagesLeft s := by
  obtain ⟨hf, hstg, h⟩ | ⟨_, _, h⟩ | ⟨hf, hstg, h⟩ | ⟨_, _, h⟩ | ⟨_, _, h⟩ := stage_cases s <;> rw [h]
  · rw [stagesLeft_keyLoad hb hf, stagesLeft_keyLoad (s := keyRound s) hb hf]
    exact Nat.succ_lt_succ (toNat_sub_succ_lt hstg)
  · exact stagesLeft_pos hb
  · rw [stagesLeft_block hb hf, stagesLeft_block (s := blockRound s) hb hf]
    exact Nat.succ_lt_succ (toNat_sub_succ_lt hstg)
  · exact stagesLeft_pos hb
  · exact stagesLeft_pos hb

theorem turnsLeft_of_job {s : State} {j : Job} (h : s.job = some j) :
    turnsLeft s = j.out.length - 8 * j.next + 1 := by rw [turnsLeft, h]

/-- Each turn of an operation in progress leaves fewer. -/
theorem turnsLeft_sequencerTurn_lt {s t : State} (hj : s.job ≠ none) (h : sequencerTurn s = .next t) :
    turnsLeft t < turnsLeft s := by
  obtain ⟨hnone, _⟩ | ⟨j, u, hjob, _, h'⟩ := sequencerTurn_cases s
  · exact absurd hnone hj
  · rw [h'] at h
    cases h
    rw [turnsLeft_of_job hjob]
    obtain ⟨_, hmore, h⟩ | ⟨_, _, h⟩ | ⟨_, h⟩ := takeResponse_cases j u <;> rw [h]
    · rw [memWrite_length] at hmore
      rw [turnsLeft_of_job rfl]
      simp only [memWrite_length]
      omega
    · exact Nat.succ_pos _
    · exact Nat.succ_pos _

theorem startEncbuf_program (bytes : List Byte) (ok : Bool) (s : State) :
    (startEncbuf bytes ok s).program = s.program := by
  match h : encbufCheck s.kvalid ok with
  | none => rw [startEncbuf_job _ _ _ h, startJob_program]
  | some e => rw [startEncbuf_error _ _ _ e h, endJob_program, endPulse_program]

theorem startDecbuf_program (bytes : List Byte) (ok : Bool) (s : State) :
    (startDecbuf bytes ok s).program = s.program := by
  match h : decbufCheck bytes s.kvalid ok with
  | none => rw [startDecbuf_job _ _ _ h, startJob_program]
  | some e => rw [startDecbuf_error _ _ _ e h, endJob_program, endPulse_program]

/-- An event, once taken, leaves the rest of the program as it is. -/
theorem runEvent_program {e : Event} {s t : State} (h : runEvent e s = .next t) : t.program = s.program := by
  cases e with
  | command w => exact (exec_host_frame h).2.2
  | reset => cases h; exact resetCore_program s
  | encbuf bytes ok => cases h; exact startEncbuf_program bytes ok s
  | decbuf bytes ok => cases h; exact startDecbuf_program bytes ok s
  | sequencerTurn => exact sequencerTurn_program h
  | edge pins n => cases h; exact (clockEdge_host_frame pins n s).2.2

/-- A step of a machine that has not finished leaves less work. -/
theorem workLeft_step_lt {s t : State} (hs : ¬ s.finished = true) (h : step s = .next t) : workLeft t < workLeft s := by
  rw [workLeft, workLeft, Prod.Lex.toLex_lt_toLex, Prod.Lex.toLex_lt_toLex]
  obtain ⟨hb, h'⟩ | ⟨hb, hwhy, h'⟩ | ⟨e, rest, hp, _, _, h'⟩ := step_cases s <;> rw [h'] at h
  · cases h
    obtain ⟨hjob, _, hprogram⟩ := stage_host_frame s
    exact .inr ⟨congrArg List.length hprogram, .inr ⟨by rw [turnsLeft, turnsLeft, hjob], stagesLeft_stage_lt hb⟩⟩
  · have hj : s.job ≠ none := fun hj =>
      hs (State.finished_iff.2 ⟨hwhy.resolve_right (absurd hj), hb, hj⟩)
    exact .inr ⟨congrArg List.length (sequencerTurn_program h), .inl (turnsLeft_sequencerTurn_lt hj h)⟩
  · left
    rw [runEvent_program h, hp]
    exact Nat.lt_succ_self _

/-- So every program finishes. -/
theorem exists_finished (s : State) : ∃ k t, steps k s = .next t ∧ t.finished = true := by
  induction s using WellFounded.induction (InvImage.wf workLeft wellFounded_lt) with
  | _ s ih =>
    by_cases hs : s.finished = true
    · exact ⟨0, s, rfl, hs⟩
    · obtain ⟨u, hu⟩ := step_next s
      obtain ⟨k, t, ht, hfin⟩ := ih u (workLeft_step_lt hs hu)
      exact ⟨k + 1, t, (steps_succ k hu).trans ht, hfin⟩

/-! ### Finished machines -/

theorem step_of_finished {s : State} (h : s.finished = true) : step s = .next (endPulse s) := by
  obtain ⟨hp, hb, hj⟩ := State.finished_iff.1 h
  exact step_of_idle hp hb hj

/-- In a finished machine the host receives nothing more, and the persistent state stays (R177). -/
theorem steps_of_finished (m : Nat) {s : State} (h : s.finished = true) : ∃ t, steps m s = .next t ∧
    repliesOf m s = [] ∧ t.finished = true ∧ t.kvalid = s.kvalid ∧ t.visibleStore = s.visibleStore := by
  induction m generalizing s with
  | zero => exact ⟨s, rfl, rfl, h, rfl, rfl⟩
  | succ m ih =>
    have hstep := step_of_finished h
    have hsilent : stepReplies s (endPulse s) = [] := by simp [stepReplies, outputs]
    obtain ⟨t, hsteps, hreplies, hfin, hkvalid, hks⟩ := ih (s := endPulse s) h
    exact ⟨t, (steps_succ m hstep).trans hsteps, by rw [repliesOf_succ m hstep, hsilent, hreplies]; rfl, hfin,
      hkvalid, hks⟩

/-! ### Outcomes -/

/-- An outcome is what the host received and the persistent state of the finished machine. -/
theorem outcomeOf_eq_some_iff {k : Nat} {s : State} {o : ProgramOutcome} : outcomeOf k s = some o ↔
    ∃ t, steps k s = .next t ∧ t.finished = true ∧
      o = { replies := repliesOf k s, kvalid := t.kvalid, ks := t.visibleStore } := by
  rw [outcomeOf]
  cases steps k s with
  | next t => simp [Option.ite_none_right_eq_some, eq_comm (a := o)]
  | fault e => simp
  | refused e => simp

/-- An outcome stays as it is whatever the number of further steps (R177). -/
theorem outcomeOf_add {k : Nat} (m : Nat) {s : State} {o : ProgramOutcome} (h : outcomeOf k s = some o) :
    outcomeOf (k + m) s = some o := by
  obtain ⟨t, hsteps, hfin, rfl⟩ := outcomeOf_eq_some_iff.1 h
  obtain ⟨u, hmore, hreplies, hfin', hkvalid, hks⟩ := steps_of_finished m hfin
  refine outcomeOf_eq_some_iff.2 ⟨u, (steps_add k m hsteps).trans hmore, hfin', ?_⟩
  rw [repliesOf_add k m hsteps, hreplies, List.append_nil, hkvalid, hks]

@[simp] theorem Reply.asResult_result (r : BufResult) : (Reply.result r).asResult = some r := rfl

/-- A response is no result, whoever gave the command. -/
@[simp] theorem Reply.asResult_response (b : Bool) (w : ResponseWord) :
    ((if b then Reply.blockResponse else Reply.response) w).asResult = none := by
  cases b <;> rfl

/-- The results among the replies of a step are those that the step added. -/
theorem results_of_stepReplies {s t : State} (h : step s = .next t) :
    t.results = s.results ++ (stepReplies s t).filterMap Reply.asResult := by
  have hreplies : (stepReplies s t).filterMap Reply.asResult = t.results.drop s.results.length := by
    rw [stepReplies, List.filterMap_append, List.filterMap_map, List.filterMap_map]
    simp [Function.comp_def]
  rw [hreplies]
  obtain hsame | ⟨r, hadd⟩ := step_results h
  · rw [hsame, List.drop_length, List.append_nil]
  · rw [hadd, List.drop_left]

/-- The results after a run are those before it and those among its replies. -/
theorem results_of_steps {k : Nat} {s t : State} (h : steps k s = .next t) :
    t.results = s.results ++ (repliesOf k s).filterMap Reply.asResult := by
  induction k generalizing s with
  | zero => cases h; simp
  | succ k ih =>
    obtain ⟨u, hu⟩ := step_next s
    rw [steps_succ k hu] at h
    rw [repliesOf_succ k hu, List.filterMap_append, ← List.append_assoc, ← results_of_stepReplies hu]
    exact ih h

/-- The outcome of one command in an idle core is its response and the store that it leaves (R177, R178). -/
theorem outcomeOf_command {s t : State} {w : CommandWord} (hp : s.program = [.command w]) (hb : s.busy = false)
    (hj : s.job = none) (h : exec (decode w) { s with program := [] } = .next t) :
    outcomeOf 1 s = some { replies := [.response t.rsp], kvalid := t.kvalid, ks := t.visibleStore } := by
  have hstep : step s = .next t :=
    (step_takes_event hp (fun hb' => nomatch hb.symm.trans hb') (absurd hj)).trans h
  obtain ⟨hpulse, hready⟩ := exec_responds h
  obtain ⟨hjob, hresults, hprogram⟩ := exec_host_frame h
  have hown : issuesBlockCommand s = false := by simp [issuesBlockCommand, hp, hj]
  have hreplies : repliesOf 1 s = [.response t.rsp] := by
    rw [repliesOf_succ 0 hstep]
    simp [stepReplies, outputs, hpulse, hown, hresults]
  exact outcomeOf_eq_some_iff.2 ⟨t, steps_succ 0 hstep, State.finished_iff.2 ⟨hprogram, hready, hjob.trans hj⟩,
    by rw [hreplies]⟩

/-- Settles O11: the work left falls to nothing, which gives every program its end (from every state, coherent or not), and
a finished machine stays as it is. -/
theorem everyStepGoesOnAndProgramsFinish : Obligations.EveryStepGoesOnAndProgramsFinish := by
  refine ⟨step_next, fun s _ => exists_finished s, fun _ => step_of_finished, fun _ m _ _ => outcomeOf_add m,
    fun _ _ _ => results_of_steps, fun s w hp hb hj => ?_⟩
  obtain ⟨t, ht⟩ := exec_next (decode w) { s with program := [] }
  exact ⟨t, ht, outcomeOf_command hp hb hj ht⟩

end Sys2Proof.Machine
end

section
/-!
PROOFS. The decoder against the encoder (R48 to R51, R55): the encoder keeps the bits that the opcode uses and clears
the others. The decoder against the opcode table (R49, R59): a row covers the words of its own opcode.
-/

namespace Sys2Proof

open Laws.EncodingFollowsRow

/-! ### Encoding a decoded word -/

/-- The operand of RDSK, widened, is the argument with bits 63:4 cleared (R51, R55). -/
theorem setWidth_extractLsb'_idx (arg : BitVec 64) : (arg.extractLsb' 0 4).setWidth 64 = arg &&& 0xF#64 := by
  have hmask : 0xF#64 = (BitVec.allOnes 4).setWidth 64 := rfl
  apply BitVec.eq_of_getLsbD_eq
  intro i hi
  rw [hmask, BitVec.getLsbD_setWidth, BitVec.getLsbD_extractLsb', BitVec.getLsbD_and, BitVec.getLsbD_setWidth,
    BitVec.getLsbD_allOnes, Nat.zero_add]
  simp [hi, Bool.and_comm]

/-- Of an RDSK word the opcode and the index stay (R55). -/
theorem encode_decode_rdsk (arg : BitVec 64) :
    encode (decode (commandWord 0b100#3 arg)) = clearIgnored (commandWord 0b100#3 arg) := by
  have hmask : (0x7000000000000000F#67 : CommandWord) = commandWord 0b111#3 0xF#64 := rfl
  have hclear : clearIgnored (commandWord 0b100#3 arg) = commandWord 0b100#3 arg &&& 0x7000000000000000F#67 := by
    rw [clearIgnored, opField_commandWord]; rfl
  rw [hclear, hmask, commandWord_and, ← setWidth_extractLsb'_idx, decode_commandWord]
  rfl

/-- Of a word with a reserved opcode the opcode stays (R55). -/
theorem encode_decode_reserved {op : BitVec 3} (arg : BitVec 64) (h : op ∈ [0b000#3, 0b101#3, 0b110#3, 0b111#3]) :
    encode (decode (commandWord op arg)) = clearIgnored (commandWord op arg) := by
  have hclear : clearIgnored (commandWord op arg) = commandWord op 0 := by
    rw [← commandWord_and_opcodeMask op arg, clearIgnored, opField_commandWord]
    simp only [List.mem_cons, List.not_mem_nil, or_false] at h
    obtain rfl | rfl | rfl | rfl := h <;> rfl
  rw [hclear, decode_commandWord]
  simp only [List.mem_cons, List.not_mem_nil, or_false] at h
  obtain rfl | rfl | rfl | rfl := h <;> rfl

/-- Encoding a decoded word clears the bits that its opcode ignores, and no others (R55). -/
theorem encode_decode (w : CommandWord) : encode (decode w) = clearIgnored w := by
  obtain ⟨op, arg, rfl⟩ := exists_commandWord w
  have hfull : op ∈ [0b001#3, 0b010#3, 0b011#3] →
      encode (decode (commandWord op arg)) = clearIgnored (commandWord op arg) := fun h => by
    rw [encode_decode_of_full (by rwa [opField_commandWord]), clearIgnored_full op arg h]
  obtain rfl | rfl | rfl | rfl | rfl | rfl | rfl | rfl := opcode_cases op
  · exact encode_decode_reserved arg (by decide)
  · exact hfull (by decide)
  · exact hfull (by decide)
  · exact hfull (by decide)
  · exact encode_decode_rdsk arg
  · exact encode_decode_reserved arg (by decide)
  · exact encode_decode_reserved arg (by decide)
  · exact encode_decode_reserved arg (by decide)

/-- Settles O1: the decoder undoes the encoder, and the encoder gives back the bits that the decoder used. -/
theorem decodeAndEncodeAgree : Obligations.DecodeAndEncodeAgree :=
  ⟨fun i => ⟨i.wf_eq_true, decode_encode i⟩, encode_decode⟩

/-! ### The rows of the opcode table -/

/-- The opcode of a row. -/
def OpcodeRow.opcode (row : OpcodeRow) : BitVec 3 := opField row.pattern

/-- Each row masks the opcode, and its pattern has no argument bit (R49). -/
theorem opcodeTable_masks_opcode : ∀ row ∈ opcodeTable,
    row.mask = 0x70000000000000000#67 ∧ row.pattern = commandWord row.opcode 0 := by decide

/-- No two rows have one opcode (R49). -/
theorem opcodeTable_opcode_inj : ∀ row ∈ opcodeTable, ∀ other ∈ opcodeTable,
    other.opcode = row.opcode → other = row := by decide

/-- A row covers the words of its opcode. -/
theorem covers_iff_opcode {row : OpcodeRow} (h : row ∈ opcodeTable) (w : CommandWord) :
    row.covers w = true ↔ row.opcode = opField w := by
  obtain ⟨op, arg, rfl⟩ := exists_commandWord w
  obtain ⟨hmask, hpattern⟩ := opcodeTable_masks_opcode row h
  rw [OpcodeRow.covers, hmask, hpattern, commandWord_and_opcodeMask, beq_iff_eq, commandWord_inj, opField_commandWord,
    and_iff_left rfl, eq_comm]

/-- Each command has a row, whose opcode and mnemonic are the command's (R49). -/
theorem exists_row_of_instr (i : Instr) :
    ∃ row ∈ opcodeTable, row.opcode = opcodeOf i ∧ row.mnemonic = mnemonicOf i := by
  have hrow : Statement i := by
    cases i with
    | loadkey key => exact loadkey key
    | encrypt block => exact encrypt block
    | decrypt block => exact decrypt block
    | rdsk idx => exact rdsk idx
    | reserved0 => exact reserved0
    | reserved5 => exact reserved5
    | reserved6 => exact reserved6
    | reserved7 => exact reserved7
  obtain ⟨_, hop, _, _, row, hmem, hname, hcovers⟩ := hrow
  exact ⟨row, hmem, ((covers_iff_opcode hmem _).1 hcovers).trans hop, hname⟩

/-- Settles O2: the row of the decoded command has the word's opcode, and so has every row that covers the word. -/
theorem everyWordHasExactlyOneRow : Obligations.EveryWordHasExactlyOneRow := by
  intro w
  obtain ⟨row, hmem, hop, hname⟩ := exists_row_of_instr (decode w)
  rw [opcodeOf_decode] at hop
  exact ⟨row, hmem, (covers_iff_opcode hmem w).2 hop, hname, fun other hother hcovers =>
    opcodeTable_opcode_inj row hmem other hother (((covers_iff_opcode hother w).1 hcovers).trans hop.symm)⟩

/-! ### Words of the spec -/

/-- Settles O4: the opcode and the operand of each word are read off. -/
theorem specWordsDecode : Obligations.SpecWordsDecode := by
  unfold Obligations.SpecWordsDecode
  decide

end Sys2Proof
end

section
/-!
PROOFS. The invariant of the machine: it holds at reset, and acceptance, stages, turns and every other event keep it. A
whole command is its acceptance and its stages, so it keeps the invariant too.
-/

namespace Sys2Proof.Machine

/-! ### The invariant in three parts: the store, the command in flight, the host's data -/

/-- What the invariant says of a command in flight. -/
def FlightUnderway (s : State) : Prop :=
  match s.flight with
  | .keyLoad => KeyLoadUnderway s
  | .block => s.kvalid = true ∧ 1 ≤ s.stg.toNat ∧ s.stg.toNat ≤ 17
  | .answer w => ResponseAllowed w

theorem flightUnderway_keyLoad {s : State} (h : s.flight = .keyLoad) : FlightUnderway s ↔ KeyLoadUnderway s := by
  rw [FlightUnderway, h]

theorem flightUnderway_block {s : State} (h : s.flight = .block) :
    FlightUnderway s ↔ s.kvalid = true ∧ 1 ≤ s.stg.toNat ∧ s.stg.toNat ≤ 17 := by
  rw [FlightUnderway, h]

theorem flightUnderway_answer {s : State} {w : ResponseWord} (h : s.flight = .answer w) :
    FlightUnderway s ↔ ResponseAllowed w := by
  rw [FlightUnderway, h]

/-- A silent core keeps the invariant when its store and its command in flight do. -/
theorem Coherent.of_in_flight {s t : State} (h : Coherent s) (hsilent : t.rspValid = false)
    (hloaded : t.kvalid = true → ∃ key, t.ks = schedule key) (hflight : FlightUnderway t)
    (hjob : t.job = s.job) (hresults : t.results = s.results) : Coherent t where
  busy_silent _ := hsilent
  response_allowed hv := nomatch hsilent.symm.trans hv
  answer_allowed _ _ hf := (flightUnderway_answer hf).1 hflight
  loaded := hloaded
  key_load _ hf := (flightUnderway_keyLoad hf).1 hflight
  block_run _ hf := (flightUnderway_block hf).1 hflight
  job_underway := hjob ▸ h.job_underway
  result_length := hresults ▸ h.result_length

/-- A ready core keeps the invariant when its store and its response do. -/
theorem Coherent.of_ready {s t : State} (h : Coherent s) (hb : t.busy = false)
    (hallowed : t.rspValid = true → ResponseAllowed t.rsp)
    (hloaded : t.kvalid = true → ∃ key, t.ks = schedule key)
    (hjob : t.job = s.job) (hresults : t.results = s.results) : Coherent t where
  busy_silent hb' := nomatch hb.symm.trans hb'
  response_allowed := hallowed
  answer_allowed hb' := nomatch hb.symm.trans hb'
  loaded := hloaded
  key_load hb' := nomatch hb.symm.trans hb'
  block_run hb' := nomatch hb.symm.trans hb'
  job_underway := hjob ▸ h.job_underway
  result_length := hresults ▸ h.result_length

theorem Coherent.with_program {s : State} (h : Coherent s) (p : List Event) : Coherent { s with program := p } :=
  { h with }

theorem Coherent.with_job {s : State} (h : Coherent s) {j : Job} (hj : JobUnderway j) :
    Coherent { s with job := some j } :=
  { h with job_underway := fun _ hj' => Option.some.inj hj' ▸ hj }

theorem coherent_endPulse {s : State} (h : Coherent s) : Coherent (endPulse s) :=
  { h with busy_silent := fun _ => rfl, response_allowed := fun hv => nomatch hv }

/-- A result as the invariant wants it: a successful one reports its length, whole blocks (R130, R131, R136). -/
def ResultWhole (r : BufResult) : Prop := ∀ bytes n, r = .ok bytes n → bytes.length = n ∧ 0 < n ∧ n % 8 = 0

theorem resultWhole_error (e : BufError) : ResultWhole (.error e) := fun _ _ h => nomatch h

theorem coherent_endJob {s : State} (h : Coherent s) {r : BufResult} (hr : ResultWhole r) : Coherent (endJob r s) :=
  { h with
    job_underway := fun _ hj => nomatch hj
    result_length := fun bytes n hmem => by
      rw [endJob_results, List.mem_append, List.mem_singleton] at hmem
      exact hmem.elim (h.result_length bytes n) fun heq => hr bytes n heq.symm }

/-- Settles O48: the machine after reset is idle, silent and without a schedule, an operation or a result. -/
theorem resetIsCoherent : Obligations.ResetIsCoherent where
  busy_silent h := nomatch h
  response_allowed h := nomatch h
  answer_allowed h := nomatch h
  loaded h := nomatch h
  key_load h := nomatch h
  block_run h := nomatch h
  job_underway _ h := nomatch h
  result_length _ _ h := nomatch h

theorem coherent_resetCore {s : State} (h : Coherent s) : Coherent (resetCore s) :=
  h.of_ready rfl (fun hv => nomatch hv) (fun hk => nomatch hk) rfl rfl

/-! ### Acceptance -/

/-- Everything that the acceptance of a command can do: the first stage of a key load or of a block command, or the
settling of an allowed response. -/
theorem accept_cases (i : Instr) (s : State) :
    (∃ key, i = .loadkey key ∧ accept i s = keyStart key s) ∨
    (∃ dir block, s.kvalid = true ∧ accept i s = blockStart dir block s) ∨
    (∃ status data, ResponseAllowed (responseWord status data) ∧ accept i s = answerStart status data s) := by
  have hrefuse : NeedsSchedule i → ¬ s.kvalid = true →
      ∃ status data, ResponseAllowed (responseWord status data) ∧ accept i s = answerStart status data s :=
    fun hi hk => ⟨_, _, responseAllowed_zero .errNoKey, accept_of_not_kvalid hi (Bool.eq_false_of_not_eq_true hk)⟩
  cases i with
  | loadkey key => exact .inl ⟨key, rfl, rfl⟩
  | encrypt block =>
    by_cases hk : s.kvalid = true
    · exact .inr (.inl ⟨false, block, hk, if_pos hk⟩)
    · exact .inr (.inr (hrefuse (.inl ⟨block, rfl⟩) hk))
  | decrypt block =>
    by_cases hk : s.kvalid = true
    · exact .inr (.inl ⟨true, block, hk, if_pos hk⟩)
    · exact .inr (.inr (hrefuse (.inr (.inl ⟨block, rfl⟩)) hk))
  | rdsk idx =>
    by_cases hk : s.kvalid = true
    · exact .inr (.inr ⟨_, _, responseAllowed_ok _, if_pos hk⟩)
    · exact .inr (.inr (hrefuse (.inr (.inr ⟨idx, rfl⟩)) hk))
  | reserved0 | reserved5 | reserved6 | reserved7 => exact .inr (.inr ⟨_, _, responseAllowed_zero .errIllOp, rfl⟩)

/-- Stage 0 of a key load has done no round (R106). -/
theorem keyLoadUnderway_keyStart (key : Key) (s : State) : KeyLoadUnderway (keyStart key s) :=
  ⟨rfl, by simp, by simp, key, (rotateLeft_wholeTurns _ rfl).symm, (rotateLeft_wholeTurns _ rfl).symm,
    fun _ hi => absurd hi (Nat.not_lt_zero _)⟩

theorem coherent_accept (i : Instr) {s : State} (h : Coherent s) : Coherent (accept i s) := by
  obtain ⟨key, _, h'⟩ | ⟨dir, block, hk, h'⟩ | ⟨status, data, hallowed, h'⟩ := accept_cases i s <;> rw [h']
  · exact h.of_in_flight rfl (fun hk => nomatch hk) (keyLoadUnderway_keyStart key s) rfl rfl
  · exact h.of_in_flight rfl h.loaded ((flightUnderway_block rfl).2 ⟨hk, by simp, by simp⟩) rfl rfl
  · exact h.of_in_flight rfl h.loaded hallowed rfl rfl

/-! ### Rounds of a key load -/

/-- The first `n` rounds of a key load are done: the halves are turned, and the entries of `KS` below `n` are the key's
(R107, R109). -/
structure KeyRoundsDone (key : Key) (n : Nat) (s : State) : Prop where
  c : s.c = (keyHalves key).1.rotateLeft (turnedBy n)
  d : s.d = (keyHalves key).2.rotateLeft (turnedBy n)
  written : ∀ i : SubkeyIndex, i.toNat < n → subkeyAt s.ks i = subkeyAt (schedule key) i

/-- A key load underway has done the rounds before its stage. -/
theorem KeyLoadUnderway.rounds_done {s : State} (h : KeyLoadUnderway s) :
    ∃ key, KeyRoundsDone key (s.stg.toNat - 1) s := by
  obtain ⟨_, _, _, key, hc, hd, hwritten⟩ := h
  exact ⟨key, hc, hd, hwritten⟩

/-- A round does the next round (R107). -/
theorem KeyRoundsDone.keyRound {key : Key} {n : Nat} {s : State} (h : KeyRoundsDone key n s) (hn : n < 16)
    (hindex : roundIndex s = BitVec.ofNat 4 n) : KeyRoundsDone key (n + 1) (keyRound s) := by
  have hc : (Machine.keyRound s).c = (keyHalves key).1.rotateLeft (turnedBy (n + 1)) := by
    rw [keyRound_c, hindex, h.c, rotl28_rotateLeft_turnedBy _ hn]
  have hd : (Machine.keyRound s).d = (keyHalves key).2.rotateLeft (turnedBy (n + 1)) := by
    rw [keyRound_d, hindex, h.d, rotl28_rotateLeft_turnedBy _ hn]
  refine ⟨hc, hd, fun i hi => ?_⟩
  by_cases hlast : i = roundIndex s
  · have hin : i.toNat = n := by rw [hlast, hindex, BitVec.toNat_ofNat, Nat.mod_eq_of_lt hn]
    rw [hlast, subkeyAt_keyRound_same, ← hlast, hc, hd, subkeyAt_schedule_eq_selectSubkey, hin]
  · have hne : i.toNat ≠ n := fun heq => hlast (by rw [hindex, ← heq, BitVec.ofNat_toNat, BitVec.setWidth_eq])
    rw [subkeyAt_keyRound_of_ne hlast, h.written i (by omega)]

/-- A round at a stage of a key load underway does the round of that stage. -/
theorem KeyLoadUnderway.keyRound_done {s : State} (h : KeyLoadUnderway s) :
    ∃ key, KeyRoundsDone key s.stg.toNat (keyRound s) := by
  obtain ⟨key, hdone⟩ := h.rounds_done
  obtain ⟨_, h1, h16, _⟩ := h
  have hsub : s.stg.toNat - 1 + 1 = s.stg.toNat := Nat.sub_add_cancel h1
  have hstg : s.stg = BitVec.ofNat 5 (s.stg.toNat - 1 + 1) := by rw [hsub, BitVec.ofNat_toNat, BitVec.setWidth_eq]
  have hlt : s.stg.toNat - 1 < 16 := by omega
  exact ⟨key, hsub ▸ hdone.keyRound hlt (roundIndex_of_stg s _ hlt hstg)⟩

/-- The stage number after one below the last. -/
theorem toNat_succ_of_lt {stg : BitVec 5} (h : stg.toNat < 31) : (stg + 1).toNat = stg.toNat + 1 := by
  bv_omega

/-- A stage number that is not the last is below it. -/
theorem toNat_lt_of_ne {stg last : BitVec 5} (h : stg.toNat ≤ last.toNat) (hne : stg ≠ last) :
    stg.toNat < last.toNat :=
  Nat.lt_of_le_of_ne h fun heq => hne (BitVec.eq_of_toNat_eq heq)

/-- A round before the last leaves the key load underway at the next stage (R107). -/
theorem KeyLoadUnderway.keyRound {s : State} (h : KeyLoadUnderway s) (hlast : s.stg ≠ 16) :
    KeyLoadUnderway (keyRound s) := by
  obtain ⟨key, hdone⟩ := h.keyRound_done
  obtain ⟨hk, _, h16, _⟩ := h
  have hlt : s.stg.toNat < 16 := toNat_lt_of_ne (last := 16) h16 hlast
  have hstg : (Machine.keyRound s).stg.toNat = s.stg.toNat + 1 := toNat_succ_of_lt (by omega)
  refine ⟨hk, by omega, by omega, key, ?_⟩
  rw [hstg, Nat.add_sub_cancel]
  exact ⟨hdone.c, hdone.d, hdone.written⟩

/-- The last round completes the schedule (R108). -/
theorem KeyLoadUnderway.keyRound_ks {s : State} (h : KeyLoadUnderway s) (hlast : s.stg = 16) :
    ∃ key, (Machine.keyRound s).ks = schedule key := by
  obtain ⟨key, hdone⟩ := h.keyRound_done
  rw [hlast] at hdone
  exact ⟨key, schedule_ext fun i => hdone.written i i.isLt⟩

/-! ### Stages, edges and whole commands -/

theorem coherent_stage {s : State} (h : Coherent s) (hb : s.busy = true) : Coherent (stage s) := by
  have hsilent := h.busy_silent hb
  obtain ⟨hf, hstg, h'⟩ | ⟨hf, hstg, h'⟩ | ⟨hf, hstg, h'⟩ | ⟨_, _, h'⟩ | ⟨w, hf, h'⟩ := stage_cases s <;> rw [h']
  · have hload := h.key_load hb hf
    exact h.of_in_flight hsilent (fun hk => nomatch hload.1.symm.trans hk)
      ((flightUnderway_keyLoad (s := keyRound s) hf).2 (hload.keyRound hstg)) rfl rfl
  · exact h.of_ready rfl (fun _ => responseAllowed_zero .ok) (fun _ => (h.key_load hb hf).keyRound_ks hstg) rfl rfl
  · obtain ⟨hk, h1, h17⟩ := h.block_run hb hf
    have hlt : s.stg.toNat < 17 := toNat_lt_of_ne (last := 17) h17 hstg
    have hnext : (blockRound s).stg.toNat = s.stg.toNat + 1 := toNat_succ_of_lt (by omega)
    exact h.of_in_flight hsilent h.loaded
      ((flightUnderway_block (s := blockRound s) hf).2 ⟨hk, by omega, by omega⟩) rfl rfl
  · exact h.of_ready rfl (fun _ => responseAllowed_ok _) h.loaded rfl rfl
  · exact h.of_ready rfl (fun _ => h.answer_allowed hb w hf) h.loaded rfl rfl

theorem coherent_runStages (n : Nat) {s : State} (h : Coherent s) : Coherent (runStages n s) :=
  runStages_induction (fun _ hb h => coherent_stage h hb) n s h

theorem coherent_clockEdge (pins : Pins) (n : Nat) {s : State} (h : Coherent s) : Coherent (clockEdge pins n s) := by
  obtain ⟨_, h'⟩ | ⟨_, _, h'⟩ | ⟨_, _, _, h'⟩ | ⟨_, _, _, h'⟩ := clockEdge_cases pins n s <;> rw [h']
  · exact coherent_resetCore h
  · exact coherent_runStages n h
  · exact coherent_runStages n (coherent_accept _ h)
  · exact coherent_endPulse h

/-- A command is its acceptance and its stages, so it keeps the invariant. -/
theorem coherent_exec {i : Instr} {s t : State} (h : Coherent s) (he : exec i s = .next t) : Coherent t := by
  rw [stagesComputeTheCommand i s] at he
  cases he
  exact coherent_runStages 17 (coherent_accept i h)

/-! ### Buffer operations -/

/-- Taking a response stores a block in its place, or ends the operation with whole blocks or an error. -/
theorem coherent_takeResponse {j : Job} {s : State} (h : Coherent s) (hj : JobUnderway j) :
    Coherent (takeResponse j s) := by
  obtain ⟨hlen, h8, hnext⟩ := hj
  obtain ⟨_, hmore, h'⟩ | ⟨_, _, h'⟩ | ⟨_, h'⟩ := takeResponse_cases j s <;> rw [h']
  · exact h.with_job ⟨by rwa [memWrite_length], by rwa [memWrite_length], hmore⟩
  · refine coherent_endJob h fun bytes n heq => ?_
    cases heq
    rw [memWrite_length]
    exact ⟨rfl, by omega, h8⟩
  · exact coherent_endJob h (resultWhole_error _)

theorem coherent_sequencerTurn {s t : State} (h : Coherent s) (ht : sequencerTurn s = .next t) : Coherent t := by
  obtain ⟨_, h'⟩ | ⟨j, u, hj, hu, h'⟩ := sequencerTurn_cases s <;> rw [h'] at ht <;> cases ht
  · exact coherent_endPulse h
  · exact coherent_takeResponse (coherent_exec h hu) (h.job_underway j hj)

/-- An operation begins with its first block, when its source is whole blocks (R131, R136). -/
theorem coherent_startJob {s : State} (h : Coherent s) (dir : Bool) {source : List Byte} (hpos : 0 < source.length)
    (h8 : source.length % 8 = 0) : Coherent (startJob dir source s) := by
  have hlen : (newBuffer source.length).length = source.length := List.length_replicate
  exact (coherent_endPulse h).with_job ⟨hlen, by rwa [hlen], by rwa [hlen]⟩

theorem coherent_startEncbuf (bytes : List Byte) (ok : Bool) {s : State} (h : Coherent s) :
    Coherent (startEncbuf bytes ok s) := by
  match hc : encbufCheck s.kvalid ok with
  | none =>
    rw [startEncbuf_job _ _ _ hc]
    exact coherent_startJob h false (padded_length bytes ▸ padlen_pos _) (padded_length bytes ▸ padlen_mod_eight _)
  | some e =>
    rw [startEncbuf_error _ _ _ e hc]
    exact coherent_endJob (coherent_endPulse h) (resultWhole_error e)

/-- DECBUF passes its checks on whole blocks only (R135). -/
theorem wholeBlocks_of_decbufCheck {bytes : List Byte} {kvalid ok : Bool} (h : decbufCheck bytes kvalid ok = none) :
    0 < bytes.length ∧ bytes.length % 8 = 0 := by
  have hpos : bytes.length ≠ 0 := fun h0 => nomatch (decbufCheck_of_length_zero h0 kvalid ok).symm.trans h
  exact ⟨Nat.pos_of_ne_zero hpos,
    not_not.1 fun h8 => nomatch (decbufCheck_of_length_mod hpos h8 kvalid ok).symm.trans h⟩

theorem coherent_startDecbuf (bytes : List Byte) (ok : Bool) {s : State} (h : Coherent s) :
    Coherent (startDecbuf bytes ok s) := by
  match hc : decbufCheck bytes s.kvalid ok with
  | none =>
    obtain ⟨hpos, h8⟩ := wholeBlocks_of_decbufCheck hc
    rw [startDecbuf_job _ _ _ hc]
    exact coherent_startJob h true hpos h8
  | some e =>
    rw [startDecbuf_error _ _ _ e hc]
    exact coherent_endJob (coherent_endPulse h) (resultWhole_error e)

/-! ### Steps -/

theorem coherent_runEvent {e : Event} {s t : State} (h : Coherent s) (ht : runEvent e s = .next t) : Coherent t := by
  cases e with
  | command w => exact coherent_exec h ht
  | reset => cases ht; exact coherent_resetCore h
  | encbuf bytes ok => cases ht; exact coherent_startEncbuf bytes ok h
  | decbuf bytes ok => cases ht; exact coherent_startDecbuf bytes ok h
  | sequencerTurn => exact coherent_sequencerTurn h ht
  | edge pins n => cases ht; exact coherent_clockEdge pins n h

/-- Settles O47: a step is a stage, a turn or an event, and each keeps the invariant. -/
theorem everyStepKeepsCoherence : Obligations.EveryStepKeepsCoherence := by
  intro s t h ht
  obtain ⟨hb, h'⟩ | ⟨_, _, h'⟩ | ⟨_, rest, _, _, _, h'⟩ := step_cases s <;> rw [h'] at ht
  · cases ht; exact coherent_stage h hb
  · exact coherent_sequencerTurn h ht
  · exact coherent_runEvent (h.with_program rest) ht

/-! ### Every accepted command is answered -/

/-- A stage gives the response when it leaves the core ready. -/
theorem stage_busy_or_responds {s : State} (hb : s.busy = true) :
    (stage s).busy = true ∨ (stage s).rspValid = true := by
  obtain ⟨_, _, h⟩ | ⟨_, _, h⟩ | ⟨_, _, h⟩ | ⟨_, _, h⟩ | ⟨_, _, h⟩ := stage_cases s <;> rw [h]
  · exact .inl hb
  · exact .inr rfl
  · exact .inl hb
  · exact .inr rfl
  · exact .inr rfl

/-- A command in flight has at most 17 stages left (R106, R121). -/
theorem stagesLeft_le_of_coherent {s : State} (h : Coherent s) (hb : s.busy = true) : stagesLeft s ≤ 17 := by
  match hf : s.flight with
  | .keyLoad =>
    obtain ⟨_, h1, h16, _⟩ := h.key_load hb hf
    rw [stagesLeft_keyLoad hb hf, BitVec.toNat_sub_of_le (BitVec.le_def.2 h16)]
    exact Nat.succ_le_succ (Nat.sub_le 16 _)
  | .block =>
    obtain ⟨_, h1, h17⟩ := h.block_run hb hf
    have hle : (17 - s.stg).toNat = 17 - s.stg.toNat := BitVec.toNat_sub_of_le (BitVec.le_def.2 h17)
    rw [stagesLeft_block hb hf, hle]
    omega
  | .answer w =>
    rw [stagesLeft, if_pos hb, hf]
    exact Nat.succ_le_succ (Nat.zero_le 16)

/-- As many stages as are left end the command. -/
theorem runStages_ready_of_stagesLeft_le {n : Nat} {s : State} (h : stagesLeft s ≤ n) :
    (runStages n s).busy = false := by
  induction n generalizing s with
  | zero => exact Bool.eq_false_of_not_eq_true fun hb => Nat.not_le_of_gt (stagesLeft_pos hb) h
  | succ n ih =>
    rcases Bool.eq_false_or_eq_true s.busy with hb | hb
    · have hless := stagesLeft_stage_lt hb
      rw [runStages_succ n s hb]
      exact ih (by omega)
    · rwa [runStages_idle _ s hb]

/-- Settles O43: the stages left are at most 17 and run out, the stage that ends them responds, and the invariant keeps
a busy core silent. -/
theorem acceptedCommandIsAnswered : Obligations.AcceptedCommandIsAnswered := by
  intro s h hb
  have hready := runStages_ready_of_stagesLeft_le (stagesLeft_le_of_coherent h hb)
  have hresponds : (runStages 17 s).busy = true ∨ (runStages 17 s).rspValid = true :=
    runStages_induction (P := fun t => t.busy = true ∨ t.rspValid = true)
      (fun _ hb _ => stage_busy_or_responds hb) 17 s (.inl hb)
  exact ⟨⟨17, Nat.le_refl 17, hready, hresponds.resolve_left fun hb' => nomatch hready.symm.trans hb'⟩,
    fun n => (coherent_runStages n h).busy_silent⟩

end Sys2Proof.Machine
end

section
/-!
PROOFS. Nothing unspecified is seen (R22, R166, R177): two states that look the same to the host do the same at every
operation of the machine, so they stay alike, and a run shows the same from both.
-/

namespace Sys2Proof.Machine

/-! ### When two states look the same -/

/-- What the host itself holds: the operation in progress, the results and the program. -/
structure SameHostData (s t : State) : Prop where
  job : s.job = t.job
  results : s.results = t.results
  program : s.program = t.program

/-- Two ready cores look the same when their schedules in force, their responses and the host's data agree. -/
theorem SameHostData.same_of_ready {s t : State} (h : SameHostData s t) (hs : s.busy = false) (ht : t.busy = false)
    (hkvalid : s.kvalid = t.kvalid) (hks : s.kvalid = true → s.ks = t.ks) (hpulse : s.rspValid = t.rspValid)
    (hrsp : s.rspValid = true → s.rsp = t.rsp) : SameToHost s t where
  kvalid := hkvalid
  busy := hs.trans ht.symm
  rspValid := hpulse
  job := h.job
  results := h.results
  program := h.program
  rsp := hrsp
  ks := hks
  flight hb := nomatch hs.symm.trans hb
  key_load hb := nomatch hs.symm.trans hb
  block_run hb := nomatch hs.symm.trans hb

/-- Settles O50: reset leaves both cores ready, silent and without a schedule. -/
theorem resetsLookTheSame : Obligations.ResetsLookTheSame := fun _ _ hjob hresults hprogram =>
  SameHostData.same_of_ready ⟨hjob, hresults, hprogram⟩ rfl rfl rfl (fun hk => nomatch hk) rfl (fun hv => nomatch hv)

theorem SameToHost.resetCore {s t : State} (h : SameToHost s t) : SameToHost (resetCore s) (resetCore t) :=
  resetsLookTheSame s t h.job h.results h.program

theorem SameToHost.endPulse {s t : State} (h : SameToHost s t) : SameToHost (endPulse s) (endPulse t) :=
  { h with rspValid := rfl, rsp := fun hv => nomatch hv }

theorem SameToHost.with_program {s t : State} (h : SameToHost s t) (p : List Event) :
    SameToHost { s with program := p } { t with program := p } :=
  { h with program := rfl }

theorem SameToHost.endJob {s t : State} (h : SameToHost s t) (r : BufResult) : SameToHost (endJob r s) (endJob r t) :=
  { h with job := rfl, results := congrArg (· ++ [r]) h.results }

theorem SameToHost.with_job {s t : State} (h : SameToHost s t) (j : Option Job) :
    SameToHost { s with job := j } { t with job := j } :=
  { h with job := rfl }

/-! ### Acceptance -/

/-- Stage 0 of a key load gives both the same registers, and no entry of `KS` is written yet (R106). -/
theorem SameToHost.keyStart {s t : State} (h : SameToHost s t) (key : Key) :
    SameToHost (keyStart key s) (keyStart key t) :=
  { h with
    kvalid := rfl
    busy := rfl
    rspValid := rfl
    rsp := fun hv => nomatch hv
    ks := fun hk => nomatch hk
    flight := fun _ => rfl
    key_load := fun _ _ => ⟨rfl, rfl, rfl, fun _ hi => absurd hi (Nat.not_lt_zero _)⟩
    block_run := fun _ hf => nomatch hf }

/-- Stage 0 of a block command gives both the same registers, and the schedule is in force (R121). -/
theorem SameToHost.blockStart {s t : State} (h : SameToHost s t) (dir : Bool) (block : Block) (hk : s.kvalid = true) :
    SameToHost (blockStart dir block s) (blockStart dir block t) :=
  { h with
    busy := rfl
    rspValid := rfl
    rsp := fun hv => nomatch hv
    flight := fun _ => rfl
    key_load := fun _ hf => nomatch hf
    block_run := fun _ _ => ⟨rfl, rfl, rfl, rfl, h.ks hk⟩ }

theorem SameToHost.answerStart {s t : State} (h : SameToHost s t) (status : Status) (data : BitVec 64) :
    SameToHost (answerStart status data s) (answerStart status data t) :=
  { h with
    busy := rfl
    rspValid := rfl
    rsp := fun hv => nomatch hv
    flight := fun _ => rfl
    key_load := fun _ hf => nomatch hf
    block_run := fun _ hf => nomatch hf }

/-- The acceptance of a block command. -/
theorem SameToHost.accept_block {s t : State} (h : SameToHost s t) (dir : Bool) (block : Block) :
    SameToHost (accept (if dir then .decrypt block else .encrypt block) s)
      (accept (if dir then .decrypt block else .encrypt block) t) := by
  rw [accept_blockInstr, accept_blockInstr, ← h.kvalid]
  split
  case isTrue hk => exact h.blockStart dir block hk
  case isFalse => exact h.answerStart .errNoKey 0

/-- What is accepted depends on the schedule in force only (R22). -/
theorem SameToHost.accept {s t : State} (h : SameToHost s t) (i : Instr) : SameToHost (accept i s) (accept i t) := by
  cases i with
  | loadkey key => exact h.keyStart key
  | encrypt block => exact h.accept_block false block
  | decrypt block => exact h.accept_block true block
  | rdsk idx =>
    rw [Machine.accept, Machine.accept, ← h.kvalid]
    split
    case isTrue hk => rw [readKS, readKS, h.ks hk]; exact h.answerStart _ _
    case isFalse => exact h.answerStart .errNoKey 0
  | reserved0 | reserved5 | reserved6 | reserved7 => exact h.answerStart .errIllOp 0

/-! ### Stages -/

/-- An entry below the next stage, other than the one of this round, is below this stage, whatever the stage number. -/
theorem lt_of_lt_succ_of_ne {stg : BitVec 5} {i : SubkeyIndex} (h : i.toNat < (stg + 1).toNat - 1)
    (hne : i ≠ (stg - 1).setWidth 4) : i.toNat < stg.toNat - 1 := by
  bv_omega

/-- A round rotates both halves, and writes one entry, alike (R107). -/
theorem keyRound_congr {s t : State} (hstg : s.stg = t.stg) (hc : s.c = t.c) (hd : s.d = t.d) :
    (keyRound s).stg = (keyRound t).stg ∧ (keyRound s).c = (keyRound t).c ∧ (keyRound s).d = (keyRound t).d ∧
    roundIndex s = roundIndex t := by
  have hindex : roundIndex s = roundIndex t := by rw [roundIndex, roundIndex, hstg]
  rw [keyRound_stg, keyRound_stg, keyRound_c, keyRound_c, keyRound_d, keyRound_d, hindex, hstg, hc, hd]
  exact ⟨rfl, rfl, rfl, rfl⟩

/-- After a round the two stores have the same entry of that round, and agree where they did. -/
theorem subkeyAt_keyRound_congr {s t : State} (hstg : s.stg = t.stg) (hc : s.c = t.c) (hd : s.d = t.d) {i : SubkeyIndex}
    (h : i ≠ roundIndex s → subkeyAt s.ks i = subkeyAt t.ks i) :
    subkeyAt (keyRound s).ks i = subkeyAt (keyRound t).ks i := by
  obtain ⟨_, hc', hd', hindex⟩ := keyRound_congr hstg hc hd
  by_cases hi : i = roundIndex s
  · rw [hi, subkeyAt_keyRound_same, hindex, subkeyAt_keyRound_same, hc', hd']
  · rw [subkeyAt_keyRound_of_ne hi, subkeyAt_keyRound_of_ne (hindex ▸ hi), h hi]

theorem SameToHost.keyRound {s t : State} (h : SameToHost s t) (hb : s.busy = true) (hf : s.flight = .keyLoad) :
    SameToHost (keyRound s) (keyRound t) := by
  obtain ⟨hstg, hc, hd, hwritten⟩ := h.key_load hb hf
  obtain ⟨hstg', hc', hd', hindex⟩ := keyRound_congr hstg hc hd
  exact { h with
    ks := fun hk => schedule_ext fun i => subkeyAt_keyRound_congr hstg hc hd fun _ => by rw [h.ks hk]
    key_load := fun _ _ => ⟨hstg', hc', hd', fun i hi => subkeyAt_keyRound_congr hstg hc hd fun hne =>
      hwritten i (lt_of_lt_succ_of_ne hi hne)⟩
    block_run := fun _ hf' => nomatch hf.symm.trans hf' }

/-- The completion of a key load (R108). -/
theorem SameHostData.keyDone {s t : State} (h : SameHostData s t) (hks : s.ks = t.ks) :
    SameToHost (keyDone s) (keyDone t) :=
  SameHostData.same_of_ready ⟨h.job, h.results, h.program⟩ rfl rfl rfl (fun _ => hks) rfl fun _ => rfl

/-- At the last stage every entry of `KS` has been written (R108). -/
theorem SameToHost.keyDone_keyRound {s t : State} (h : SameToHost s t) (hb : s.busy = true) (hf : s.flight = .keyLoad)
    (hlast : s.stg = 16) : SameToHost (keyDone (Machine.keyRound s)) (keyDone (Machine.keyRound t)) := by
  obtain ⟨hstg, hc, hd, hwritten⟩ := h.key_load hb hf
  have hnext : (s.stg + 1).toNat - 1 = 16 := by rw [hlast]; decide
  have hks : (Machine.keyRound s).ks = (Machine.keyRound t).ks :=
    schedule_ext fun i => subkeyAt_keyRound_congr hstg hc hd fun hne =>
      hwritten i (lt_of_lt_succ_of_ne (hnext ▸ i.isLt) hne)
  exact SameHostData.keyDone ⟨h.job, h.results, h.program⟩ hks

theorem SameToHost.blockRound {s t : State} (h : SameToHost s t) (hb : s.busy = true) (hf : s.flight = .block) :
    SameToHost (blockRound s) (blockRound t) := by
  obtain ⟨hstg, hl, hr, hdir, hks⟩ := h.block_run hb hf
  have hindex : roundIndex s = roundIndex t := by rw [roundIndex, roundIndex, hstg]
  have hright : (Machine.blockRound s).r = (Machine.blockRound t).r := by
    rw [blockRound_r, blockRound_r, readKS, readKS, hl, hr, hdir, hks, hindex]
  exact { h with
    key_load := fun _ hf' => nomatch hf.symm.trans hf'
    block_run := fun _ _ => ⟨congrArg (· + 1) hstg, hr, hright, hdir, hks⟩ }

theorem SameToHost.blockDone {s t : State} (h : SameToHost s t) (out : Block) :
    SameToHost (blockDone out s) (blockDone out t) :=
  SameHostData.same_of_ready ⟨h.job, h.results, h.program⟩ rfl rfl h.kvalid h.ks rfl fun _ => rfl

theorem SameToHost.answerStage {s t : State} (h : SameToHost s t) (w : ResponseWord) :
    SameToHost (answerStage w s) (answerStage w t) :=
  SameHostData.same_of_ready ⟨h.job, h.results, h.program⟩ rfl rfl h.kvalid h.ks rfl fun _ => rfl

/-- A stage uses the registers of the command in flight only. -/
theorem SameToHost.stage {s t : State} (h : SameToHost s t) (hb : s.busy = true) : SameToHost (stage s) (stage t) := by
  have hflight := h.flight hb
  obtain ⟨hf, hstg, h'⟩ | ⟨hf, hstg, h'⟩ | ⟨hf, hstg, h'⟩ | ⟨hf, hstg, h'⟩ | ⟨w, hf, h'⟩ := stage_cases s <;>
    rw [h'] <;> rw [hf] at hflight
  · obtain ⟨heq, _⟩ := h.key_load hb hf
    rw [stage_keyLoad t hflight.symm, keyStage_round t (heq ▸ hstg)]
    exact h.keyRound hb hf
  · obtain ⟨heq, _⟩ := h.key_load hb hf
    rw [stage_keyLoad t hflight.symm, keyStage_last t (heq ▸ hstg)]
    exact h.keyDone_keyRound hb hf hstg
  · obtain ⟨heq, _⟩ := h.block_run hb hf
    rw [stage_block t hflight.symm, blockStage_round t (heq ▸ hstg)]
    exact h.blockRound hb hf
  · obtain ⟨heq, hl, hr, _⟩ := h.block_run hb hf
    rw [stage_block t hflight.symm, blockStage_last t (heq ▸ hstg), hl, hr]
    exact h.blockDone _
  · rw [stage_answer t w hflight.symm]
    exact h.answerStage w

theorem SameToHost.runStages {s t : State} (h : SameToHost s t) (n : Nat) :
    SameToHost (runStages n s) (runStages n t) := by
  induction n generalizing s t with
  | zero => exact h
  | succ n ih =>
    rcases Bool.eq_false_or_eq_true s.busy with hb | hb
    · rw [runStages_succ n s hb, runStages_succ n t (h.busy ▸ hb)]
      exact ih (h.stage hb)
    · rwa [runStages_idle _ s hb, runStages_idle _ t (h.busy ▸ hb)]

theorem SameToHost.clockEdge {s t : State} (h : SameToHost s t) (pins : Pins) (n : Nat) :
    SameToHost (clockEdge pins n s) (clockEdge pins n t) := by
  rw [Machine.clockEdge, Machine.clockEdge, ← h.busy]
  split
  · exact h.resetCore
  split
  · exact h.runStages n
  split
  · exact (h.accept _).runStages n
  · exact h.endPulse

/-! ### Steps -/

/-- Two outcomes of a step are alike: both go on, to states that look the same. -/
def OutcomesAlike (x y : Host.Outcome State Fault Refusal) : Prop :=
  ∃ s t, x = .next s ∧ y = .next t ∧ SameToHost s t

theorem SameToHost.outcomesAlike {s t : State} (h : SameToHost s t) : OutcomesAlike (.next s) (.next t) :=
  ⟨s, t, rfl, rfl, h⟩

/-- A command is its acceptance and its stages. -/
theorem SameToHost.exec {s t : State} (h : SameToHost s t) (i : Instr) : OutcomesAlike (exec i s) (exec i t) := by
  rw [stagesComputeTheCommand, stagesComputeTheCommand]
  exact ((h.accept i).runStages 17).outcomesAlike

/-- The sequencer stores a block and goes on when more blocks are left (R132, R137). -/
theorem takeResponse_of_more {j : Job} {s : State} (hok : responseStatus s.rsp = Status.ok.code)
    (hmore : 8 * (j.next + 1) < j.out.length) : takeResponse j s = { s with job := some { j with
      out := memWrite j.out (8 * j.next) (responseData s.rsp), next := j.next + 1 } } := by
  rw [takeResponse, if_pos hok]
  exact if_pos (by rwa [memWrite_length])

/-- It ends the operation after the last block. -/
theorem takeResponse_of_last {j : Job} {s : State} (hok : responseStatus s.rsp = Status.ok.code)
    (hlast : j.out.length ≤ 8 * (j.next + 1)) : takeResponse j s =
      endJob (.ok (memWrite j.out (8 * j.next) (responseData s.rsp)) j.out.length) s := by
  rw [takeResponse, if_pos hok]
  dsimp only
  rw [memWrite_length, if_neg (Nat.not_lt_of_le hlast)]

/-- It ends the operation at a response that is not `OK`. -/
theorem takeResponse_of_error {j : Job} {s : State} (herr : responseStatus s.rsp ≠ Status.ok.code) :
    takeResponse j s = endJob (.error .invalidParameterNoKey) s := by
  rw [takeResponse, if_neg herr]

/-- The sequencer takes the response that both cores give. -/
theorem SameToHost.takeResponse {s t : State} (h : SameToHost s t) (j : Job) (hrsp : s.rsp = t.rsp) :
    SameToHost (takeResponse j s) (takeResponse j t) := by
  have hdata : responseData s.rsp = responseData t.rsp := congrArg responseData hrsp
  by_cases hok : responseStatus s.rsp = Status.ok.code
  · by_cases hmore : 8 * (j.next + 1) < j.out.length
    · rw [takeResponse_of_more hok hmore, takeResponse_of_more (hrsp ▸ hok) hmore, hdata]
      exact h.with_job _
    · have hlast := Nat.le_of_not_lt hmore
      rw [takeResponse_of_last hok hlast, takeResponse_of_last (hrsp ▸ hok) hlast, hdata]
      exact h.endJob _
  · rw [takeResponse_of_error hok, takeResponse_of_error (hrsp ▸ hok)]
    exact h.endJob _

theorem SameToHost.sequencerTurn {s t : State} (h : SameToHost s t) :
    OutcomesAlike (sequencerTurn s) (sequencerTurn t) := by
  match hj : s.job with
  | none =>
    rw [sequencerTurn_none s hj, sequencerTurn_none t (h.job ▸ hj)]
    exact h.endPulse.outcomesAlike
  | some j =>
    obtain ⟨u, hu, hs⟩ := sequencerTurn_some s j hj
    obtain ⟨v, hv, ht⟩ := sequencerTurn_some t j (h.job ▸ hj)
    obtain ⟨u', v', hu', hv', huv⟩ := h.exec (jobCommand j)
    cases hu.symm.trans hu'
    cases hv.symm.trans hv'
    rw [hs, ht]
    exact (huv.takeResponse j (huv.rsp (exec_responds hu).1)).outcomesAlike

theorem SameToHost.startJob {s t : State} (h : SameToHost s t) (dir : Bool) (source : List Byte) :
    SameToHost (startJob dir source s) (startJob dir source t) :=
  h.endPulse.with_job _

/-- The checks see `KVALID` only, which is on a port (R141). -/
theorem SameToHost.startEncbuf {s t : State} (h : SameToHost s t) (bytes : List Byte) (ok : Bool) :
    SameToHost (startEncbuf bytes ok s) (startEncbuf bytes ok t) := by
  match hc : encbufCheck s.kvalid ok with
  | none =>
    rw [startEncbuf_job _ _ _ hc, startEncbuf_job _ _ _ (h.kvalid ▸ hc)]
    exact h.startJob false _
  | some e =>
    rw [startEncbuf_error _ _ _ e hc, startEncbuf_error _ _ _ e (h.kvalid ▸ hc)]
    exact h.endPulse.endJob _

theorem SameToHost.startDecbuf {s t : State} (h : SameToHost s t) (bytes : List Byte) (ok : Bool) :
    SameToHost (startDecbuf bytes ok s) (startDecbuf bytes ok t) := by
  match hc : decbufCheck bytes s.kvalid ok with
  | none =>
    rw [startDecbuf_job _ _ _ hc, startDecbuf_job _ _ _ (h.kvalid ▸ hc)]
    exact h.startJob true _
  | some e =>
    rw [startDecbuf_error _ _ _ e hc, startDecbuf_error _ _ _ e (h.kvalid ▸ hc)]
    exact h.endPulse.endJob _

theorem SameToHost.runEvent {s t : State} (h : SameToHost s t) (e : Event) :
    OutcomesAlike (runEvent e s) (runEvent e t) := by
  cases e with
  | command w => exact h.exec _
  | reset => exact h.resetCore.outcomesAlike
  | encbuf bytes ok => exact (h.startEncbuf bytes ok).outcomesAlike
  | decbuf bytes ok => exact (h.startDecbuf bytes ok).outcomesAlike
  | sequencerTurn => exact h.sequencerTurn
  | edge pins n => exact (h.clockEdge pins n).outcomesAlike

theorem SameToHost.quietStep {s t : State} (h : SameToHost s t) : OutcomesAlike (quietStep s) (quietStep t) := by
  rcases Bool.eq_false_or_eq_true s.busy with hb | hb
  · rw [quietStep_of_busy hb, quietStep_of_busy (h.busy ▸ hb)]
    exact (h.stage hb).outcomesAlike
  · rw [quietStep_of_ready hb, quietStep_of_ready (h.busy ▸ hb)]
    exact h.sequencerTurn

/-- The host waits with an event in both states or in neither. -/
theorem SameToHost.eventStep {s t : State} (h : SameToHost s t) (e : Event) (rest : List Event) :
    OutcomesAlike (eventStep e rest s) (eventStep e rest t) := by
  have hwait : ((s.busy && e.waitsForReady) || (s.job.isSome && e.waitsForOperation)) =
      ((t.busy && e.waitsForReady) || (t.job.isSome && e.waitsForOperation)) := by rw [h.busy, h.job]
  rw [Machine.eventStep, Machine.eventStep, hwait]
  split
  · exact h.quietStep
  · exact (h.with_program rest).runEvent e

theorem SameToHost.step {s t : State} (h : SameToHost s t) : OutcomesAlike (step s) (step t) := by
  rw [Machine.step, Machine.step, ← h.program]
  split
  · exact h.quietStep
  · exact h.eventStep _ _

/-! ### What a run shows -/

/-- The ports show nothing that is unspecified (R45). -/
theorem SameToHost.outputs {s t : State} (h : SameToHost s t) : outputs s = outputs t := by
  have hrsp : (if s.rspValid then some s.rsp else none) = if t.rspValid then some t.rsp else none := by
    rw [← h.rspValid]
    split
    case isTrue hv => rw [h.rsp hv]
    case isFalse => rfl
  rw [Machine.outputs, Machine.outputs, hrsp, h.busy, h.rspValid, h.kvalid]

theorem SameToHost.stepReplies {s t s' t' : State} (h : SameToHost s t) (h' : SameToHost s' t') :
    stepReplies s s' = stepReplies t t' := by
  have hown : issuesBlockCommand s = issuesBlockCommand t := by
    rw [issuesBlockCommand, issuesBlockCommand, h.program, h.job, h.busy]
  rw [Machine.stepReplies, Machine.stepReplies, h'.outputs, hown, h.results, h'.results]

theorem SameToHost.responsesOf {s t : State} (h : SameToHost s t) (k : Nat) : responsesOf k s = responsesOf k t := by
  induction k generalizing s t with
  | zero => rfl
  | succ k ih =>
    obtain ⟨s', t', hs, ht, h'⟩ := h.step
    simp only [Machine.responsesOf, hs, ht]
    rw [h'.outputs, ih h']

theorem SameToHost.repliesOf {s t : State} (h : SameToHost s t) (k : Nat) : repliesOf k s = repliesOf k t := by
  induction k generalizing s t with
  | zero => rfl
  | succ k ih =>
    obtain ⟨s', t', hs, ht, h'⟩ := h.step
    rw [repliesOf_succ k hs, repliesOf_succ k ht, h.stepReplies h', ih h']

theorem SameToHost.steps {s t : State} (h : SameToHost s t) (k : Nat) : OutcomesAlike (steps k s) (steps k t) := by
  induction k generalizing s t with
  | zero => exact h.outcomesAlike
  | succ k ih =>
    obtain ⟨s', t', hs, ht, h'⟩ := h.step
    rw [steps_succ k hs, steps_succ k ht]
    exact ih h'

theorem SameToHost.visibleStore {s t : State} (h : SameToHost s t) : s.visibleStore = t.visibleStore := by
  rw [State.visibleStore, State.visibleStore, ← h.kvalid]
  split
  case isTrue hk => rw [h.ks hk]
  case isFalse => rfl

theorem SameToHost.finished {s t : State} (h : SameToHost s t) : s.finished = t.finished := by
  rw [State.finished, State.finished, h.program, h.busy, h.job]

theorem SameToHost.outcomeOf {s t : State} (h : SameToHost s t) (k : Nat) : outcomeOf k s = outcomeOf k t := by
  obtain ⟨s', t', hs, ht, h'⟩ := h.steps k
  simp only [Machine.outcomeOf, hs, ht]
  rw [h'.finished, h.repliesOf k, h'.kvalid, h'.visibleStore]

/-- Settles O49: every operation of a step keeps the relation, the ports show nothing that it leaves open, and a run
shows its steps one after another. -/
theorem nothingUnspecifiedIsSeen : Obligations.NothingUnspecifiedIsSeen := by
  refine ⟨fun s t s' h hs => ?_, fun _ _ h => h.outputs,
    fun k _ _ h => ⟨h.responsesOf k, h.repliesOf k, h.outcomeOf k⟩⟩
  obtain ⟨u, t', hu, ht, h'⟩ := h.step
  cases hs.symm.trans hu
  exact ⟨t', ht, h'⟩

end Sys2Proof.Machine
end

section
/-!
PROOFS. The tables and the permutation engine (R65 to R76, R84): what each table selects, the laws of `permute`, and the
directly addressed S-boxes.
-/

namespace Sys2Proof.Machine

/-! ### The shape of the tables -/

theorem tableIP_perm : tableIP.positions.Perm (List.range' 1 64) := by decide

theorem tableFP_perm : tableFP.positions.Perm (List.range' 1 64) := by decide

theorem tableP_perm : tableP.positions.Perm (List.range' 1 32) := by decide

/-- `E` selects every position once, and the sixteen at the edges of the groups twice (R68). -/
theorem tableE_count : ∀ p ∈ List.range' 1 32, tableE.positions.count p =
    if p ∈ [1, 4, 5, 8, 9, 12, 13, 16, 17, 20, 21, 24, 25, 28, 29, 32] then 2 else 1 := by decide

/-- `PC1` drops the parity positions (R70). -/
theorem tablePC1_count : ∀ p ∈ List.range' 1 64, tablePC1.positions.count p = if p % 8 = 0 then 0 else 1 := by decide

/-- `PC2` drops eight positions (R71). -/
theorem tablePC2_count : ∀ p ∈ List.range' 1 56,
    tablePC2.positions.count p = if p ∈ [9, 18, 22, 25, 35, 38, 43, 54] then 0 else 1 := by decide

/-- Every row of every S-box holds 0 to 15 once (R74). -/
theorem boxes_rows_perm : ∀ box ∈ boxes, ∀ row ∈ List.range 4,
    (((box.toList.drop (16 * row)).take 16).map BitVec.toNat).Perm (List.range 16) := by
  have hall : (boxes.all fun box => (List.range 4).all fun row =>
      (((box.toList.drop (16 * row)).take 16).map BitVec.toNat).isPerm (List.range 16)) = true := by decide
  intro box hbox row hrow
  exact List.isPerm_iff.1 (List.all_eq_true.1 (List.all_eq_true.1 hall box hbox) row hrow)

/-- Settles O27: one lemma for each table; the last three facts about `PC2` and the rotation amounts are read off. -/
theorem tablesHaveTheStatedShape : Obligations.TablesHaveTheStatedShape :=
  ⟨tableIP_perm, tableFP_perm, tableP_perm, tableE_count, tablePC1_count, tablePC2_count, by decide, by decide,
    by decide, boxes_rows_perm⟩

/-! ### Laws of `permute` -/

/-- `permute` distributes over exclusive or, bit by bit (R84). -/
theorem permute_xor {win wout : Nat} (t : Table win wout) (a b : BitVec win) :
    permute t (a ^^^ b) = permute t a ^^^ permute t b := by
  apply BitVec.eq_of_getLsbD_eq
  intro j hj
  rw [BitVec.getLsbD_xor, getLsbD_permute t _ j hj, getLsbD_permute t _ j hj, getLsbD_permute t _ j hj, msb, msb, msb,
    BitVec.getLsbD_xor]

/-- A position in a table is one of its entries. -/
theorem Table.exists_entry_eq {win wout : Nat} (t : Table win wout) {p : Nat} (h : p ∈ t.positions) :
    ∃ i, 1 ≤ i ∧ i ≤ wout ∧ t.entry i = p := by
  obtain ⟨i, hi, rfl⟩ := List.mem_iff_getElem.1 h
  exact ⟨i + 1, Nat.succ_pos i, t.length_eq ▸ hi, List.getD_eq_getElem _ _ hi⟩

/-- A table that selects every position loses no bit of the source. -/
theorem permute_injective_of_perm {w : Nat} {t : Table w w} (h : t.positions.Perm (List.range' 1 w)) :
    Function.Injective (permute t) := by
  intro a b heq
  apply eq_of_msb_eq
  intro p h1 h2
  obtain ⟨i, hi1, hi2, rfl⟩ := t.exists_entry_eq (h.mem_iff.2 (List.mem_range'_1.2 ⟨h1, by omega⟩))
  rw [← msb_permute t a hi1 hi2, heq, msb_permute t b hi1 hi2]

/-- So `permute` by it is one-to-one on the finitely many values of its width (R84). -/
theorem permute_bijective_of_perm {w : Nat} {t : Table w w} (h : t.positions.Perm (List.range' 1 w)) :
    Function.Bijective (permute t) :=
  Finite.injective_iff_bijective.1 (permute_injective_of_perm h)

/-- Settles O25: the laws hold bit by bit for every table, and `IP`, `FP` and `P` select every position. -/
theorem permuteLaws : Obligations.PermuteLaws :=
  ⟨fun _ _ => permute_zero, fun _ _ => permute_allOnes, fun _ _ => permute_xor, fun _ _ t _ _ => permute_congr t,
    permute_bijective_of_perm tableIP_perm, permute_bijective_of_perm tableFP_perm,
    permute_bijective_of_perm tableP_perm⟩

/-! ### The directly addressed S-boxes (R76) -/

/-- The directly addressed boxes, in the order of `boxes`. -/
def directBoxes : List SBox :=
  [tableSD1, tableSD2, tableSD3, tableSD4, tableSD5, tableSD6, tableSD7, tableSD8]

/-- Each direct box has for a group what the box has at the group's row and column (R76). -/
theorem lookup_directBoxes : ∀ (i : Fin 8) (g : BitVec 6),
    (directBoxes[i.val]'i.isLt).lookup g = (boxes[i.val]'i.isLt).lookup (rowMajor g) := by decide

/-- What each direct box has for its own group. -/
def directNibble (x : BitVec 48) (i : Fin 8) : BitVec 4 := (directBoxes[i.val]'i.isLt).lookup (group x (i + 1))

theorem sboxDirect_eq_concatNibbles (x : BitVec 48) : sboxDirect x = concatNibbles 7 (directNibble x) := rfl

/-- Settles O29: the two forms put the same nibbles in the same order. -/
theorem directTablesAgree : Obligations.DirectTablesAgree := by
  intro x
  rw [sboxDirect_eq_concatNibbles, sbox_eq_concatNibbles]
  exact congrArg (concatNibbles 7) (funext fun i => lookup_directBoxes i _)

end Sys2Proof.Machine
end

section
/-!
PROOFS. The complementation law (R98, R127): complements pass through every selection and rotation, cancel in the round
function, and so pass through the key schedule and the rounds; with the known-answer test of the cipher (R128).
-/

namespace Sys2Proof.Machine

/-! ### The round function -/

theorem not_xor_not {w : Nat} (a b : BitVec w) : ~~~a ^^^ ~~~b = a ^^^ b := by
  rw [← BitVec.not_xor_left, BitVec.xor_comm, ← BitVec.not_xor_left, BitVec.not_not, BitVec.xor_comm]

/-- Settles O30: the two complements cancel where the expanded half meets the subkey. -/
theorem roundFunctionOfComplements : Obligations.RoundFunctionOfComplements := by
  intro r k
  rw [roundFunction, permute_not, not_xor_not, roundFunction]

/-! ### The key schedule -/

/-- A slice of a complement. -/
theorem extractLsb'_not {w : Nat} (x : BitVec w) {start len : Nat} (h : start + len ≤ w) :
    (~~~x).extractLsb' start len = ~~~x.extractLsb' start len := by
  apply BitVec.eq_of_getLsbD_eq
  intro i hi
  have hin : start + i < w := by omega
  simp [hi, hin]

/-- A rotation of a complement. -/
theorem rotateLeft_not {w : Nat} (x : BitVec w) (n : Nat) : (~~~x).rotateLeft n = ~~~x.rotateLeft n := by
  apply BitVec.eq_of_getLsbD_eq
  intro i hi
  have hfrom : (i + (w - n % w)) % w < w := Nat.mod_lt _ (by omega)
  rw [BitVec.getLsbD_not, getLsbD_rotateLeft_mod _ _ _ hi, getLsbD_rotateLeft_mod _ _ _ hi, BitVec.getLsbD_not,
    decide_eq_true hfrom, decide_eq_true hi]

/-- Both halves complemented. -/
def notHalves {w : Nat} (x : BitVec w × BitVec w) : BitVec w × BitVec w := (~~~x.1, ~~~x.2)

theorem keyHalves_not (key : Key) : keyHalves (~~~key) = notHalves (keyHalves key) := by
  rw [keyHalves, permute_not]
  exact Prod.ext (extractLsb'_not _ (by decide)) (extractLsb'_not _ (by decide))

theorem selectSubkey_not (c d : KeyHalf) : selectSubkey (~~~c) (~~~d) = ~~~selectSubkey c d := by
  have happend : ~~~c ++ ~~~d = ~~~(c ++ d) := BitVec.not_append.symm
  rw [selectSubkey, happend, permute_not, selectSubkey]

/-- Settles O33: complements pass through the key selection, the rotations and the subkey selection. -/
theorem scheduleOfComplement : Obligations.ScheduleOfComplement := by
  intro key i
  rw [subkeyAt_schedule_eq_selectSubkey, subkeyAt_schedule_eq_selectSubkey, keyHalves_not, notHalves, rotateLeft_not,
    rotateLeft_not, selectSubkey_not]

/-! ### The rounds -/

theorem initialHalves_not (block : Block) : initialHalves (~~~block) = notHalves (initialHalves block) := by
  rw [initialHalves, permute_not]
  exact Prod.ext (extractLsb'_not _ (by decide)) (extractLsb'_not _ (by decide))

theorem finalBlock_notHalves (lr : Half × Half) : finalBlock (notHalves lr) = ~~~finalBlock lr := by
  have happend : ~~~lr.2 ++ ~~~lr.1 = ~~~(lr.2 ++ lr.1) := BitVec.not_append.symm
  rw [finalBlock, notHalves, happend, permute_not, finalBlock]

/-- In a round only the half outside the round function carries the complement on (R127). -/
theorem feistelRound_not (k : Subkey) (lr : Half × Half) :
    feistelRound (~~~k) (notHalves lr) = notHalves (feistelRound k lr) := by
  rw [feistelRound, notHalves, roundFunctionOfComplements, ← BitVec.not_xor_left, feistelRound, notHalves]

/-- Rounds under complemented subkeys, from complemented halves. -/
theorem cryptRounds_not {ks ks' : Schedule} (h : ∀ i : SubkeyIndex, subkeyAt ks' i = ~~~subkeyAt ks i) (dir : Bool)
    (n : Nat) (lr : Half × Half) : cryptRounds ks' dir n (notHalves lr) = notHalves (cryptRounds ks dir n lr) := by
  induction n with
  | zero => rfl
  | succ n ih => rw [cryptRounds, ih, h, feistelRound_not, cryptRounds]

/-- Settles O35: the rounds carry the complements from the initial permutation to the final one. -/
theorem complementationLaw : Obligations.ComplementationLaw := by
  intro block key dir
  rw [crypt, initialHalves_not, cryptRounds_not (scheduleOfComplement key), finalBlock_notHalves, crypt]

/-! ### The known-answer test -/

theorem crypt_knownAnswer : crypt 0x0123456789ABCDEF#64 (schedule 0x133457799BBCDFF1#64) false =
    0x85E813540F0AB405#64 := by decide +kernel

/-- Settles O37: encryption and the first subkey are computed, and decryption undoes encryption (R125). -/
theorem knownAnswer : Obligations.KnownAnswer := by
  refine ⟨crypt_knownAnswer, ?_, by decide +kernel⟩
  rw [← crypt_knownAnswer]
  exact crypt_not_crypt _ _ false

end Sys2Proof.Machine
end

section
/-!
PROOFS. The commands as transactions (R5, R178): a step that takes a command is `exec` of it, and each command's
response, registers and frame.
-/

namespace Sys2Proof.Machine

/-! ### Steps that take a command -/

/-- Settles O6: with nothing in progress the host waits for nothing. -/
theorem stepRunsTheDecodedCommand : Obligations.StepRunsTheDecodedCommand := fun _ _ _ hp hb hj =>
  step_takes_event hp (fun hb' => nomatch hb.symm.trans hb') (absurd hj)

/-- The word of a command, as a number that fits, is placed as that command's event. -/
theorem withFetchWord_program (s : State) (i : Instr) {nbits : Nat} (h : 67 ≤ nbits) :
    (s.withFetchWord nbits (encode i).toNat).program = .command (encode i) :: s.program := by
  have hlt : (encode i).toNat < 2 ^ nbits :=
    Nat.lt_of_lt_of_le (encode i).isLt (Nat.pow_le_pow_right (by decide) h)
  rw [State.withFetchWord, Nat.mod_eq_of_lt hlt, BitVec.ofNat_toNat, BitVec.setWidth_eq]

/-- Settles O7: the placed word is the next event, with nothing in progress, and decodes to its command. -/
theorem stepRunsTheFetchedWord : Obligations.StepRunsTheFetchedWord := by
  intro s i nbits h
  rw [stepRunsTheDecodedCommand _ _ _ (withFetchWord_program s i h) rfl rfl, decode_encode]
  rfl

/-! ### Each command with a schedule loaded -/

/-- Settles O12: LOADKEY has one outcome, in every state. -/
theorem loadkeyFillsTheStore : Obligations.LoadkeyFillsTheStore := fun key s =>
  ⟨_, exec_loadkey key s, rfl, rfl, rfl, rfl, rfl, rfl, rfl, rfl, rfl, rfl, rfl⟩

/-- Settles O14: the block command in forward order. -/
theorem encryptAnswersTheCiphertext : Obligations.EncryptAnswersTheCiphertext := fun block s hk =>
  ⟨_, exec_encrypt_of_kvalid block s hk, rfl, rfl, rfl, rfl, rfl, rfl, rfl, rfl, rfl, rfl⟩

/-- Settles O15: the block command in reverse order. -/
theorem decryptAnswersThePlaintext : Obligations.DecryptAnswersThePlaintext := fun block s hk =>
  ⟨_, exec_decrypt_of_kvalid block s hk, rfl, rfl, rfl, rfl, rfl, rfl, rfl, rfl, rfl, rfl⟩

/-- Settles O16: RDSK answers the entry and touches the response registers only. -/
theorem rdskAnswersTheSubkey : Obligations.RdskAnswersTheSubkey := fun idx s hk =>
  ⟨_, exec_rdsk_of_kvalid idx s hk, rfl, rfl, rfl, rfl⟩

/-! ### Every command -/

/-- A command answers a word that `respond` makes, of the kind that R52 allows. -/
theorem exec_rsp_allowed {i : Instr} {s t : State} (h : exec i s = .next t) :
    ∃ status data, t.rsp = responseWord status data ∧ ResponseAllowed (responseWord status data) := by
  obtain ⟨_, _, h'⟩ | ⟨_, _, _, _, h'⟩ | ⟨_, _, _, h'⟩ | ⟨status, _, _, h'⟩ := exec_cases i s <;>
    rw [h'] at h <;> cases h
  · exact ⟨_, _, rfl, responseAllowed_zero .ok⟩
  · exact ⟨_, _, rfl, responseAllowed_ok _⟩
  · exact ⟨_, _, rfl, responseAllowed_ok _⟩
  · exact ⟨_, _, rfl, responseAllowed_zero status⟩

/-- Settles O19: the word of each kind of response has a status of R52, and data 0 unless it is `OK`. -/
theorem everyResponseIsAllowed : Obligations.EveryResponseIsAllowed := by
  refine ⟨fun status data => ⟨responseStatus_responseWord status data, responseData_responseWord status data⟩,
    fun i s t h => ?_⟩
  obtain ⟨hpulse, hready⟩ := exec_responds h
  obtain ⟨status, data, hrsp, hallowed⟩ := exec_rsp_allowed h
  exact ⟨hpulse, hready, hrsp ▸ hallowed, status, data, hrsp⟩

/-- Settles O23: LOADKEY does not look at the state, and any other command leaves the store that its response depends
on. -/
theorem repeatedCommandsAgree : Obligations.RepeatedCommandsAgree := by
  intro i s t u h h'
  by_cases hkey : ∃ key, i = .loadkey key
  · obtain ⟨key, rfl⟩ := hkey
    cases h
    cases h'
    exact ⟨rfl, rfl, rfl⟩
  · have hi : ∀ key, i ≠ .loadkey key := fun key hk => hkey ⟨key, hk⟩
    obtain ⟨hks, hkvalid⟩ := exec_store_frame h hi
    obtain ⟨hks', hkvalid'⟩ := exec_store_frame h' hi
    exact ⟨exec_rsp_congr hkvalid (fun _ => hks) h' h, hks', hkvalid'⟩

/-! ### After a reset -/

/-- Settles O46: reset leaves no schedule, and a command that needs one is refused without it. -/
theorem nothingIsReadAfterReset : Obligations.NothingIsReadAfterReset :=
  ⟨⟨rfl, rfl, rfl, rfl⟩, fun s _ hi => ⟨_, exec_of_not_kvalid hi (resetCore_kvalid s), rfl, rfl⟩⟩

end Sys2Proof.Machine
end

section
/-!
PROOFS. Clock edges and stages (R45 to R47, R164, R165, R172): what an edge does to an idle and to a busy core, that
only the number of stages counts, and where `KVALID` can fall.
-/

namespace Sys2Proof.Machine

/-! ### One edge -/

theorem clockEdge_of_rst {pins : Pins} (n : Nat) (s : State) (h : pins.rst = true) :
    clockEdge pins n s = resetCore s := if_pos h

theorem clockEdge_of_busy {pins : Pins} (n : Nat) {s : State} (h : pins.rst = false) (hb : s.busy = true) :
    clockEdge pins n s = runStages n s := by
  rw [clockEdge, if_neg (by simp [h]), if_pos hb]

/-- Settles O45: the reset pin is looked at first, and the reset event sets what the outputs show. -/
theorem resetWins : Obligations.ResetWins := fun _ n s hrst =>
  ⟨clockEdge_of_rst n s hrst, rfl, rfl, rfl, rfl, rfl, rfl, rfl, rfl⟩

/-- Settles O44: the two cases of an idle core. -/
theorem idleCoreTakesOrKeeps : Obligations.IdleCoreTakesOrKeeps := by
  intro pins n s hrst hb
  have hedge : clockEdge pins n s =
      if pins.cmdValid then runStages n (accept (decode pins.cmd) s) else endPulse s := by
    rw [clockEdge, if_neg (by simp [hrst]), if_neg (by simp [hb])]
  exact ⟨fun hv => hedge.trans (if_pos hv), fun hv => hedge.trans (if_neg (by simp [hv]))⟩

/-! ### Many edges -/

/-- A core that is busy after some stages was busy before them. -/
theorem busy_of_runStages_busy {n : Nat} {s : State} (h : (runStages n s).busy = true) : s.busy = true := by
  by_contra hb
  rw [runStages_idle n s (Bool.eq_false_of_not_eq_true hb)] at h
  exact hb h

/-- Edges without reset, the core busy after them, do their stages and nothing else. -/
theorem foldl_clockEdge_of_busy (edges : List (Pins × Nat)) {s : State} (hrst : ∀ e ∈ edges, e.1.rst = false)
    (hb : (runStages (edges.map Prod.snd).sum s).busy = true) :
    edges.foldl (fun t e => clockEdge e.1 e.2 t) s = runStages (edges.map Prod.snd).sum s := by
  induction edges generalizing s with
  | nil => rfl
  | cons e edges ih =>
    rw [List.map_cons, List.sum_cons, runStages_add] at hb ⊢
    have hfirst := busy_of_runStages_busy (busy_of_runStages_busy hb)
    rw [List.foldl_cons, clockEdge_of_busy e.2 (hrst e List.mem_cons_self) hfirst]
    exact ih (fun e' he' => hrst e' (List.mem_cons_of_mem e he')) hb

/-- Settles O42: an edge on a busy core is its stages, stages add up, and so do those of many edges. -/
theorem busyCoreOnlyDoesStages : Obligations.BusyCoreOnlyDoesStages := by
  refine ⟨fun _ n _ => clockEdge_of_busy n, runStages_add, fun edges last s hrst hb => ?_⟩
  have hedges : ∀ e ∈ edges, e.1.rst = false := fun e he => hrst e (List.mem_append_left _ he)
  have hlast : last.1.rst = false := hrst last (List.mem_append_right _ List.mem_cons_self)
  rw [List.foldl_append, foldl_clockEdge_of_busy edges hedges hb, List.foldl_cons, List.foldl_nil,
    clockEdge_of_busy _ hlast hb, List.map_append, List.sum_append, runStages_add, List.map_singleton,
    List.sum_singleton]

/-! ### The stages of a block command -/

/-- Settles O41: the state after `n` rounds is that of stage 0 with other halves and another stage number. -/
theorem blockStagesHoldTheRounds : Obligations.BlockStagesHoldTheRounds := by
  intro dir block s n h
  rw [blockRounds_eq dir block s h]
  exact ⟨rfl, rfl, rfl, rfl, rfl⟩

/-! ### Where `KVALID` falls -/

theorem exec_keeps_kvalid {i : Instr} {s t : State} (h : exec i s = .next t) (hk : s.kvalid = true) :
    t.kvalid = true := by
  by_cases hkey : ∃ key, i = .loadkey key
  · obtain ⟨key, rfl⟩ := hkey
    cases h
    rfl
  · exact (exec_store_frame h fun key hi => hkey ⟨key, hi⟩).2.trans hk

theorem runStages_keeps_kvalid (n : Nat) {s : State} (hk : s.kvalid = true) : (runStages n s).kvalid = true :=
  runStages_induction (P := fun t => t.kvalid = true) (fun t _ => stage_kvalid t) n s hk

/-- A key load that has ended has set `KVALID` (R108). -/
theorem runStages_keyStart_busy_or_kvalid (n : Nat) (key : Key) (s : State) :
    (runStages n (keyStart key s)).busy = true ∨ (runStages n (keyStart key s)).kvalid = true := by
  refine (runStages_induction (P := fun t => t.flight = .keyLoad ∧ (t.busy = true ∨ t.kvalid = true))
    (fun t hb ⟨hf, _⟩ => ⟨(stage_flight t).trans hf, ?_⟩) n (keyStart key s) ⟨rfl, .inl rfl⟩).2
  rw [stage_keyLoad t hf, keyStage]
  split
  · exact .inr rfl
  · exact .inl hb

/-- An edge takes `KVALID` away by reset, or by accepting a LOADKEY that is still in flight. -/
theorem clockEdge_clears_kvalid {pins : Pins} {n : Nat} {s : State} (hk : s.kvalid = true)
    (hk' : (clockEdge pins n s).kvalid = false) : pins.rst = true ∨
      (s.busy = false ∧ pins.cmdValid = true ∧ (clockEdge pins n s).busy = true ∧
        ∃ key, decode pins.cmd = .loadkey key) := by
  have hkept : ∀ {t : State}, t.kvalid = true → clockEdge pins n s ≠ t := fun ht heq =>
    nomatch ht.symm.trans ((congrArg State.kvalid heq).symm.trans hk')
  obtain ⟨hrst, _⟩ | ⟨_, _, h⟩ | ⟨_, hb, hv, h⟩ | ⟨_, _, _, h⟩ := clockEdge_cases pins n s
  · exact .inl hrst
  · exact absurd h (hkept (runStages_keeps_kvalid n hk))
  · obtain ⟨key, hkey, hstart⟩ | ⟨_, _, _, hstart⟩ | ⟨_, _, _, hstart⟩ := accept_cases (decode pins.cmd) s <;>
      rw [hstart] at h
    · obtain hbusy | hset := runStages_keyStart_busy_or_kvalid n key s
      · exact .inr ⟨hb, hv, h ▸ hbusy, key, hkey⟩
      · exact absurd h (hkept hset)
    · exact absurd h (hkept (runStages_keeps_kvalid n hk))
    · exact absurd h (hkept (runStages_keeps_kvalid n hk))
  · exact absurd h (hkept hk)

/-- Settles O21: commands keep `KVALID`, and of the other steps only a reset and an edge can take it away. -/
theorem onlyResetClearsKvalid : Obligations.OnlyResetClearsKvalid := by
  refine ⟨fun _ _ _ => exec_keeps_kvalid, fun s t ht hk hk' => ?_⟩
  have hkept : t.kvalid ≠ true := fun hset => nomatch hset.symm.trans hk'
  obtain ⟨_, h⟩ | ⟨_, _, h⟩ | ⟨e, rest, hp, _, _, h⟩ := step_cases s <;> rw [h] at ht
  · cases ht
    exact absurd (stage_kvalid s hk) hkept
  · exact absurd ((sequencerTurn_store_frame ht).2.trans hk) hkept
  · cases e with
    | command w => exact absurd (exec_keeps_kvalid ht hk) hkept
    | reset => exact .inl ⟨rest, hp⟩
    | encbuf bytes ok =>
      cases ht
      exact absurd ((startEncbuf_store_frame bytes ok { s with program := rest }).2.trans hk) hkept
    | decbuf bytes ok =>
      cases ht
      exact absurd ((startDecbuf_store_frame bytes ok { s with program := rest }).2.trans hk) hkept
    | sequencerTurn => exact absurd ((sequencerTurn_store_frame ht).2.trans hk) hkept
    | edge pins n =>
      cases ht
      exact .inr ⟨pins, n, rest, hp, clockEdge_clears_kvalid (s := { s with program := rest }) hk hk'⟩

end Sys2Proof.Machine
end

section
/-!
PROOFS. The blocks of a buffer operation and its refusal (R41, R142, R143, R150): the block loop writes each block of
the output once, in whatever order, and a failed check ends the operation before its first block.
-/

namespace Sys2Proof.Machine

/-! ### The block loop -/

/-- Settles O53: the loop writes each whole block, and no byte is added. -/
theorem blocksAreIndependent : Obligations.BlocksAreIndependent := fun ks dir source h8 =>
  ⟨codecOutput_length ks dir source, fun _ _ => memRead_codecOutput ks dir (by omega)⟩

/-- Settles O54: the blocks of a loop in any order of all the indices are `crypt` of the source's. -/
theorem blockOrderIsIrrelevant : Obligations.BlockOrderIsIrrelevant := by
  intro ks dir source order h8 hperm
  apply buffer_ext_blocks
  · rw [codecBlocks_length, codecOutput_length]
  · rwa [codecBlocks_length]
  intro b hb
  rw [codecBlocks_length] at hb
  have hinside : ∀ c ∈ order, 8 * c + 8 ≤ (newBuffer source.length).length := by
    intro c hc
    have hlt := List.mem_range.1 (hperm.mem_iff.1 hc)
    rw [newBuffer, List.length_replicate]
    omega
  have hmem : b ∈ order := hperm.mem_iff.2 (List.mem_range.2 (by omega))
  rw [memRead_codecOutput ks dir hb, codecBlocks, memRead_foldl_codecBlock _ _ _ _ _ _ hinside, if_pos hmem]

/-! ### A refused operation -/

/-- ENCBUF gives an error only when a check fails (R142). -/
theorem encbufCheck_of_error {kvalid ok : Bool} {ks : Schedule} {bytes : List Byte} {e : BufError}
    (h : encbuf kvalid ks bytes ok = .error e) : encbufCheck kvalid ok = some e := by
  match hc : encbufCheck kvalid ok with
  | none => rw [encbuf_of_pass hc] at h; cases h
  | some e' => rw [encbuf_of_error hc] at h; cases h; rfl

/-- So does DECBUF (R142). -/
theorem decbufCheck_of_error {kvalid ok : Bool} {ks : Schedule} {bytes : List Byte} {e : BufError}
    (h : decbuf kvalid ks bytes ok = .error e) : decbufCheck bytes kvalid ok = some e := by
  match hc : decbufCheck bytes kvalid ok with
  | none => rw [decbuf_of_pass hc] at h; cases h
  | some e' => rw [decbuf_of_error hc] at h; cases h; rfl

/-- Settles O60: the failed check is the one that the start of the operation meets. -/
theorem refusedBufferOperationChangesNothing : Obligations.RefusedBufferOperationChangesNothing :=
  ⟨fun bytes ok s e h => startEncbuf_error bytes ok s e (encbufCheck_of_error h),
    fun bytes ok s e h => startDecbuf_error bytes ok s e (decbufCheck_of_error h)⟩

end Sys2Proof.Machine
end

section
/-!
PROOFS. The turns of the sequencer (R132, R137, R173): one block command a turn, under the schedule in force; the turns
of an operation compute its function, and in a program they end before the next command (R39, R47, R177).
-/

namespace Sys2Proof.Machine

/-! ### One block command -/

/-- What an operation leaves alone: the store, the registers of the key schedule and the program. -/
structure OperationFrame (s t : State) : Prop where
  ks : t.ks = s.ks
  kvalid : t.kvalid = s.kvalid
  c : t.c = s.c
  d : t.d = s.d
  program : t.program = s.program

theorem OperationFrame.trans {s t u : State} (h : OperationFrame s t) (h' : OperationFrame t u) : OperationFrame s u :=
  ⟨h'.ks.trans h.ks, h'.kvalid.trans h.kvalid, h'.c.trans h.c, h'.d.trans h.d, h'.program.trans h.program⟩

theorem OperationFrame.with_job {s t : State} (h : OperationFrame s t) (j : Option Job) :
    OperationFrame s { t with job := j } :=
  { h with }

theorem OperationFrame.endJob {s t : State} (h : OperationFrame s t) (r : BufResult) : OperationFrame s (endJob r t) :=
  { h with }

/-- The block that an operation reads next. -/
def Job.block (j : Job) : Block := memRead j.source (8 * j.next)

/-- The operation with its next block stored (R132, R137). -/
def Job.advance (j : Job) (ks : Schedule) : Job :=
  { j with out := codecBlock ks j.dir j.source j.out j.next, next := j.next + 1 }

/-- The core after the block command of a turn has been answered. -/
def afterBlock (j : Job) (s : State) : State := blockCommand j.dir j.block s

theorem exec_jobCommand (j : Job) (s : State) : exec (jobCommand j) s = .next (afterBlock j s) :=
  exec_blockInstr j.dir j.block s

/-- A block command leaves `C` and `D` alone, and all that a command other than LOADKEY leaves alone. -/
theorem afterBlock_frame (j : Job) (s : State) : OperationFrame s (afterBlock j s) := by
  rcases Bool.eq_false_or_eq_true s.kvalid with hk | hk
  · rw [afterBlock, blockCommand_of_kvalid _ _ _ hk]; exact ⟨rfl, rfl, rfl, rfl, rfl⟩
  · rw [afterBlock, blockCommand_of_not_kvalid _ _ _ hk]; exact ⟨rfl, rfl, rfl, rfl, rfl⟩

@[simp] theorem afterBlock_results (j : Job) (s : State) : (afterBlock j s).results = s.results :=
  (exec_host_frame (exec_jobCommand j s)).2.1

@[simp] theorem afterBlock_busy (j : Job) (s : State) : (afterBlock j s).busy = false :=
  (exec_responds (exec_jobCommand j s)).2

@[simp] theorem afterBlock_rspValid (j : Job) (s : State) : (afterBlock j s).rspValid = true :=
  (exec_responds (exec_jobCommand j s)).1

theorem afterBlock_rsp (j : Job) {s : State} (hk : s.kvalid = true) :
    (afterBlock j s).rsp = responseWord .ok (crypt j.block s.ks j.dir) :=
  blockCommand_rsp j.dir j.block hk

/-! ### One turn -/

theorem sequencerTurn_of_job {s : State} {j : Job} (hj : s.job = some j) :
    sequencerTurn s = .next (takeResponse j (afterBlock j s)) := by
  obtain ⟨t, ht, h⟩ := sequencerTurn_some s j hj
  rw [exec_jobCommand] at ht
  cases ht
  exact h

/-- A turn before the last block stores the block and goes on. -/
theorem sequencerTurn_of_more {s : State} {j : Job} (hj : s.job = some j) (hk : s.kvalid = true)
    (hmore : 8 * (j.next + 1) < j.out.length) :
    sequencerTurn s = .next { afterBlock j s with job := some (j.advance s.ks) } := by
  have hrsp := afterBlock_rsp j hk
  rw [sequencerTurn_of_job hj, takeResponse_of_more (by rw [hrsp, responseStatus_responseWord]) hmore, hrsp,
    responseData_responseWord, ← hrsp]
  rfl

/-- The turn for the last block ends the operation with the whole output. -/
theorem sequencerTurn_of_last {s : State} {j : Job} (hj : s.job = some j) (hk : s.kvalid = true)
    (hlast : j.out.length ≤ 8 * (j.next + 1)) :
    sequencerTurn s = .next (endJob (.ok (j.advance s.ks).out j.out.length) (afterBlock j s)) := by
  have hrsp := afterBlock_rsp j hk
  rw [sequencerTurn_of_job hj, takeResponse_of_last (by rw [hrsp, responseStatus_responseWord]) hlast, hrsp,
    responseData_responseWord]
  rfl

/-- Without a schedule a turn ends the operation with an error. -/
theorem sequencerTurn_of_not_kvalid {s : State} {j : Job} (hj : s.job = some j) (hk : s.kvalid = false) :
    sequencerTurn s = .next (endJob (.error .invalidParameterNoKey) (afterBlock j s)) := by
  have hrefused : responseStatus (afterBlock j s).rsp ≠ Status.ok.code := by
    rw [afterBlock, blockCommand_of_not_kvalid _ _ _ hk, reject_rsp, responseStatus_responseWord]
    decide
  rw [sequencerTurn_of_job hj, takeResponse_of_error hrefused]

/-- Settles O59: the three kinds of turn, and the frame of the block command. -/
theorem turnUsesTheScheduleInForce : Obligations.TurnUsesTheScheduleInForce := by
  refine ⟨fun j s hj hk hmore => ⟨_, sequencerTurn_of_more hj hk hmore, ?_⟩,
    fun j s hj hk hlast => ⟨_, sequencerTurn_of_last hj hk hlast, ?_⟩,
    fun j s hj hk => ⟨_, sequencerTurn_of_not_kvalid hj hk, ?_⟩⟩ <;>
    obtain ⟨hks, hkvalid, _, _, hprogram⟩ := afterBlock_frame j s
  · exact ⟨rfl, hks, hkvalid, afterBlock_results j s, hprogram⟩
  · exact ⟨rfl, congrArg (· ++ _) (afterBlock_results j s), hks, hkvalid, hprogram⟩
  · exact ⟨rfl, congrArg (· ++ _) (afterBlock_results j s), hks, hkvalid, hprogram⟩

/-! ### The turns of an operation -/

/-- An operation that has stored its first `n` blocks. -/
def jobAt (ks : Schedule) (dir : Bool) (source : List Byte) (n : Nat) : Job where
  dir := dir
  source := source
  out := (List.range n).foldl (codecBlock ks dir source) (newBuffer source.length)
  next := n

theorem jobAt_advance (ks : Schedule) (dir : Bool) (source : List Byte) (n : Nat) :
    (jobAt ks dir source n).advance ks = jobAt ks dir source (n + 1) := by
  rw [jobAt, jobAt, List.range_succ, List.foldl_append]
  rfl

@[simp] theorem jobAt_out_length (ks : Schedule) (dir : Bool) (source : List Byte) (n : Nat) :
    (jobAt ks dir source n).out.length = source.length := by
  rw [jobAt, foldl_codecBlock_length, newBuffer, List.length_replicate]

/-- The response to block command `b` of an operation. -/
def blockWord (ks : Schedule) (dir : Bool) (source : List Byte) (b : Nat) : ResponseWord :=
  responseWord .ok (crypt (memRead source (8 * b)) ks dir)

/-- The operation begun in `s` has done `n` blocks in `u`, and exposed nothing. -/
structure OperationAt (dir : Bool) (source : List Byte) (s : State) (n : Nat) (u : State) : Prop where
  job : u.job = some (jobAt s.ks dir source n)
  results : u.results = s.results
  ready : s.busy = false → u.busy = false
  frame : OperationFrame s u

/-- The operation begun in `s` has ended in `t`, with the whole output as its result. -/
structure OperationEnded (dir : Bool) (source : List Byte) (s t : State) : Prop where
  job : t.job = none
  results : t.results = s.results ++ [.ok (codecOutput s.ks dir source) source.length]
  ready : t.busy = false
  frame : OperationFrame s t

theorem operationAt_startJob (dir : Bool) (source : List Byte) (s : State) :
    OperationAt dir source s 0 (startJob dir source s) :=
  ⟨rfl, rfl, id, ⟨rfl, rfl, rfl, rfl, rfl⟩⟩

section
variable {dir : Bool} {source : List Byte} {s u : State} {n : Nat}

/-- The block command of the next turn gives its response on the port. -/
theorem OperationAt.afterBlock_rsp (h : OperationAt dir source s n u) (hk : s.kvalid = true) :
    (afterBlock (jobAt s.ks dir source n) u).rsp = blockWord s.ks dir source n := by
  have hrsp := Machine.afterBlock_rsp (jobAt s.ks dir source n) (h.frame.kvalid.trans hk)
  rwa [h.frame.ks] at hrsp

/-- A turn before the last block. -/
theorem OperationAt.turn (h : OperationAt dir source s n u) (hk : s.kvalid = true)
    (hmore : 8 * (n + 1) < source.length) : ∃ v, sequencerTurn u = .next v ∧ OperationAt dir source s (n + 1) v ∧
      (outputs v).rsp = some (blockWord s.ks dir source n) := by
  refine ⟨_, sequencerTurn_of_more h.job (h.frame.kvalid.trans hk) (by rwa [jobAt_out_length]), ⟨?_, ?_, ?_, ?_⟩, ?_⟩
  · rw [h.frame.ks, jobAt_advance]
  · exact (afterBlock_results _ u).trans h.results
  · exact fun _ => afterBlock_busy _ u
  · exact (h.frame.trans (afterBlock_frame _ u)).with_job _
  · exact (if_pos (afterBlock_rspValid _ u)).trans (congrArg some (h.afterBlock_rsp hk))

/-- The turn for the last block. -/
theorem OperationAt.lastTurn (h : OperationAt dir source s n u) (hk : s.kvalid = true)
    (hlast : source.length = 8 * (n + 1)) : ∃ v, sequencerTurn u = .next v ∧ OperationEnded dir source s v ∧
      (outputs v).rsp = some (blockWord s.ks dir source n) := by
  have hblocks : source.length / 8 = n + 1 := by omega
  have hout : ((jobAt s.ks dir source n).advance u.ks).out = codecOutput s.ks dir source := by
    rw [h.frame.ks, jobAt_advance, codecOutput, hblocks]
    rfl
  refine ⟨_, sequencerTurn_of_last h.job (h.frame.kvalid.trans hk) (by rw [jobAt_out_length, hlast]; rfl),
    ⟨rfl, ?_, ?_, ?_⟩, ?_⟩
  · rw [hout, jobAt_out_length, endJob_results, afterBlock_results, h.results]
  · exact afterBlock_busy _ u
  · exact (h.frame.trans (afterBlock_frame _ u)).endJob _
  · exact (if_pos (afterBlock_rspValid _ u)).trans (congrArg some (h.afterBlock_rsp hk))

/-- One more turn after `n` turns. -/
theorem sequencerTurns_succ_of_next {t v : State} (n : Nat) (h : sequencerTurns n s = .next t)
    (h' : sequencerTurn t = .next v) : sequencerTurns (n + 1) s = .next v := by
  induction n generalizing s with
  | zero => cases h; rw [sequencerTurns, h']; rfl
  | succ n ih =>
    obtain ⟨u, hu⟩ := sequencerTurn_next s
    rw [sequencerTurns, hu] at h ⊢
    exact ih h

/-- Fewer turns than blocks leave the operation in progress. -/
theorem sequencerTurns_startJob (hk : s.kvalid = true) (hn : 8 * n < source.length) :
    ∃ u, sequencerTurns n (startJob dir source s) = .next u ∧ OperationAt dir source s n u := by
  induction n with
  | zero => exact ⟨_, rfl, operationAt_startJob dir source s⟩
  | succ n ih =>
    obtain ⟨u, hu, hat⟩ := ih (by omega)
    obtain ⟨v, hv, hat', _⟩ := hat.turn hk hn
    exact ⟨v, sequencerTurns_succ_of_next n hu hv, hat'⟩

/-- As many turns as blocks end it. -/
theorem sequencerTurns_operation (hk : s.kvalid = true) (hpos : 0 < source.length) (h8 : source.length % 8 = 0) :
    ∃ t, sequencerTurns (source.length / 8) (startJob dir source s) = .next t ∧ OperationEnded dir source s t := by
  obtain ⟨n, hn⟩ : ∃ n, source.length = 8 * (n + 1) := ⟨source.length / 8 - 1, by omega⟩
  have hblocks : source.length / 8 = n + 1 := by omega
  obtain ⟨u, hu, hat⟩ := sequencerTurns_startJob (dir := dir) hk (n := n) (source := source) (by omega)
  obtain ⟨t, ht, hended, _⟩ := hat.lastTurn hk hn
  rw [hblocks]
  exact ⟨t, sequencerTurns_succ_of_next n hu ht, hended⟩

/-- The turns of an operation add the output of its source to the results, in the end and not before, and leave alone
what an operation leaves alone. -/
theorem sequencerTurns_compute (hk : s.kvalid = true) (hpos : 0 < source.length) (h8 : source.length % 8 = 0) : ∃ t,
    sequencerTurns (source.length / 8) (startJob dir source s) = .next t ∧
    t.results = s.results ++ [.ok (codecOutput s.ks dir source) source.length] ∧ t.job = none ∧
    t.ks = s.ks ∧ t.kvalid = s.kvalid ∧ t.c = s.c ∧ t.d = s.d ∧ t.program = s.program ∧
    ∀ n, n < source.length / 8 → ∃ u, sequencerTurns n (startJob dir source s) = .next u ∧ u.results = s.results := by
  obtain ⟨t, ht, hjob, hresults, _, hks, hkvalid, hc, hd, hprogram⟩ :=
    sequencerTurns_operation (dir := dir) hk hpos h8
  refine ⟨t, ht, hresults, hjob, hks, hkvalid, hc, hd, hprogram, fun n hn => ?_⟩
  obtain ⟨u, hu, hat⟩ := sequencerTurns_startJob (dir := dir) hk (n := n) (source := source) (by omega)
  exact ⟨u, hu, hat.results⟩

end

/-- With a schedule loaded and a buffer allocated ENCBUF begins (R131). -/
theorem startEncbuf_of_kvalid (bytes : List Byte) {s : State} (hk : s.kvalid = true) :
    startEncbuf bytes true s = startJob false (padded bytes) s :=
  startEncbuf_job bytes true s (by rw [hk, encbufCheck_pass])

/-- So does DECBUF of whole blocks (R136). -/
theorem startDecbuf_of_kvalid {bytes : List Byte} {s : State} (hk : s.kvalid = true) (hpos : 0 < bytes.length)
    (h8 : bytes.length % 8 = 0) : startDecbuf bytes true s = startJob true bytes s :=
  startDecbuf_job bytes true s (by rw [hk, decbufCheck_of_wholeBlocks hpos.ne' h8, encbufCheck_pass])

/-- ENCBUF with a schedule loaded and a buffer allocated gives the output for the padded buffer, and its length
(R131). -/
theorem encbuf_eq_codecOutput (ks : Schedule) (bytes : List Byte) :
    encbuf true ks bytes true = .ok (codecOutput ks false (padded bytes)) (padded bytes).length := by
  rw [encbuf_of_pass encbufCheck_pass, padded_length]

theorem padded_wholeBlocks (bytes : List Byte) : 0 < (padded bytes).length ∧ (padded bytes).length % 8 = 0 := by
  rw [padded_length]
  exact ⟨padlen_pos _, padlen_mod_eight _⟩

/-- Settles O57: both operations begin on whole blocks, and their turns end with the output of the function. -/
theorem sequencerComputesTheOperation : Obligations.SequencerComputesTheOperation := by
  refine ⟨fun bytes s hk => ?_, fun bytes s hk hpos h8 => ?_⟩
  · obtain ⟨hpos, h8⟩ := padded_wholeBlocks bytes
    rw [startEncbuf_of_kvalid bytes hk, encbuf_eq_codecOutput, ← padded_length]
    exact sequencerTurns_compute hk hpos h8
  · rw [startDecbuf_of_kvalid hk hpos h8, decbuf_of_wholeBlocks _ hpos h8]
    exact sequencerTurns_compute hk hpos h8

/-! ### An operation in a program -/

/-- The host waits with the next event, if there is one, while an operation is in progress. -/
def WaitsForOperation : List Event → Prop
  | [] => True
  | e :: _ => e.waitsForOperation = true

/-- While the host waits for the operation, a step of a ready core is a turn (R47). -/
theorem step_of_operation {u : State} (hj : u.job ≠ none) (hb : u.busy = false) (hwait : WaitsForOperation u.program) :
    step u = sequencerTurn u := by
  match hp : u.program with
  | [] => rw [step_of_no_event hp, quietStep_of_ready hb]
  | e :: rest =>
    rw [hp] at hwait
    rw [step_waiting u e rest hp (.inr ⟨hj, hwait⟩), quietStep_of_ready hb]

/-- That step is the sequencer's, not the host's. -/
theorem issuesBlockCommand_of_operation {u : State} (hj : u.job ≠ none) (hb : u.busy = false)
    (hwait : WaitsForOperation u.program) : issuesBlockCommand u = true := by
  have hown : (u.job.isSome && !u.busy) = true := by rw [hb, Option.isSome_iff_ne_none.2 hj]; rfl
  match hp : u.program with
  | [] => rw [issuesBlockCommand, hp]; exact hown
  | .edge _ _ :: _ => rw [hp] at hwait; exact absurd hwait Bool.false_ne_true
  | .command _ :: _ | .reset :: _ | .encbuf _ _ :: _ | .decbuf _ _ :: _ | .sequencerTurn :: _ =>
    rw [issuesBlockCommand, hp]; exact hown

section
variable {dir : Bool} {source : List Byte} {s u v : State} {n : Nat}

/-- A step of an operation in progress is a turn, and its response is the sequencer's. -/
theorem OperationAt.step (h : OperationAt dir source s n u) (hb : s.busy = false)
    (hwait : WaitsForOperation s.program) : step u = sequencerTurn u ∧ issuesBlockCommand u = true := by
  have hj : u.job ≠ none := h.job ▸ Option.some_ne_none _
  have hwait' : WaitsForOperation u.program := h.frame.program ▸ hwait
  exact ⟨step_of_operation hj (h.ready hb) hwait', issuesBlockCommand_of_operation hj (h.ready hb) hwait'⟩

/-- What the host receives in a step that the sequencer takes: the response, and the results that it added. -/
theorem stepReplies_of_blockWord {w : ResponseWord} {rs : List BufResult} (hown : issuesBlockCommand u = true)
    (hrsp : (outputs v).rsp = some w) (hresults : v.results = u.results ++ rs) :
    stepReplies u v = .blockResponse w :: rs.map .result := by
  rw [stepReplies, hown, hrsp, hresults, List.drop_left]
  rfl

/-- The responses to the first `n` block commands of an operation, in order. -/
def blockReplies (ks : Schedule) (dir : Bool) (source : List Byte) (n : Nat) : List Reply :=
  (List.range n).map fun b => .blockResponse (blockWord ks dir source b)

theorem blockReplies_succ (ks : Schedule) (dir : Bool) (source : List Byte) (n : Nat) :
    blockReplies ks dir source (n + 1) =
      blockReplies ks dir source n ++ [.blockResponse (blockWord ks dir source n)] := by
  rw [blockReplies, List.range_succ, List.map_append]
  rfl

/-- One more step after `n` steps, with its replies. -/
theorem steps_succ_of_next {t : State} (h : steps n s = .next t) (h' : Machine.step t = .next v) :
    steps (n + 1) s = .next v ∧ repliesOf (n + 1) s = repliesOf n s ++ stepReplies t v := by
  rw [steps_add n 1 h, repliesOf_add n 1 h, steps_succ 0 h', repliesOf_succ 0 h', repliesOf_zero, List.append_nil]
  exact ⟨rfl, rfl⟩

/-- Fewer steps than blocks leave the operation in progress; the host has received a response for each. -/
theorem steps_startJob (hk : s.kvalid = true) (hb : s.busy = false) (hwait : WaitsForOperation s.program)
    (hn : 8 * n < source.length) : ∃ u, steps n (startJob dir source s) = .next u ∧ OperationAt dir source s n u ∧
      repliesOf n (startJob dir source s) = blockReplies s.ks dir source n := by
  induction n with
  | zero => exact ⟨_, rfl, operationAt_startJob dir source s, rfl⟩
  | succ n ih =>
    obtain ⟨u, hu, hat, hreplies⟩ := ih (by omega)
    obtain ⟨v, hv, hat', hrsp⟩ := hat.turn hk hn
    obtain ⟨hstep, hown⟩ := hat.step hb hwait
    obtain ⟨hsteps, hall⟩ := steps_succ_of_next hu (hstep.trans hv)
    have hadded : v.results = u.results ++ [] := by rw [hat'.results, hat.results, List.append_nil]
    exact ⟨v, hsteps, hat', by rw [hall, hreplies, stepReplies_of_blockWord hown hrsp hadded, blockReplies_succ]; rfl⟩

/-- As many steps as blocks end it; the host has received every response, and then the result. -/
theorem steps_operation (hk : s.kvalid = true) (hb : s.busy = false) (hwait : WaitsForOperation s.program)
    (hpos : 0 < source.length) (h8 : source.length % 8 = 0) :
    ∃ t, steps (source.length / 8) (startJob dir source s) = .next t ∧ OperationEnded dir source s t ∧
      repliesOf (source.length / 8) (startJob dir source s) = blockReplies s.ks dir source (source.length / 8) ++
        [.result (.ok (codecOutput s.ks dir source) source.length)] := by
  obtain ⟨n, hn⟩ : ∃ n, source.length = 8 * (n + 1) := ⟨source.length / 8 - 1, by omega⟩
  have hblocks : source.length / 8 = n + 1 := by omega
  obtain ⟨u, hu, hat, hreplies⟩ := steps_startJob (dir := dir) hk hb hwait (n := n) (source := source) (by omega)
  obtain ⟨t, ht, hended, hrsp⟩ := hat.lastTurn hk hn
  obtain ⟨hstep, hown⟩ := hat.step hb hwait
  obtain ⟨hsteps, hall⟩ := steps_succ_of_next hu (hstep.trans ht)
  have hadded := hended.results
  rw [← hat.results] at hadded
  rw [hblocks, hall, hreplies, stepReplies_of_blockWord hown hrsp hadded, blockReplies_succ, List.append_assoc]
  exact ⟨t, hsteps, hended, rfl⟩

end

section
variable {dir : Bool} {source : List Byte} {s : State} {e : Event} {rest : List Event}

/-- The start of an operation as an event of the program, and one step for each block. -/
theorem steps_of_operationEvent (hp : s.program = e :: rest)
    (he : runEvent e { s with program := rest } = .next (startJob dir source { s with program := rest }))
    (hb : s.busy = false) (hj : s.job = none) (hk : s.kvalid = true) (hwait : WaitsForOperation rest)
    (hpos : 0 < source.length) (h8 : source.length % 8 = 0) :
    ∃ t, steps (source.length / 8 + 1) s = .next t ∧ OperationEnded dir source { s with program := rest } t ∧
      repliesOf (source.length / 8 + 1) s = blockReplies s.ks dir source (source.length / 8) ++
        [.result (.ok (codecOutput s.ks dir source) source.length)] := by
  have hstart := (step_takes_event hp (fun hb' => nomatch hb.symm.trans hb') (absurd hj)).trans he
  have hsilent : stepReplies s (startJob dir source { s with program := rest }) = [] := by
    simp [stepReplies, outputs]
  obtain ⟨t, ht, hended, hreplies⟩ :=
    steps_operation (dir := dir) (s := { s with program := rest }) hk hb hwait hpos h8
  rw [steps_succ _ hstart, repliesOf_succ _ hstart, hsilent, List.nil_append]
  exact ⟨t, ht, hended, hreplies⟩

/-- When it has ended, the next step runs the command that follows it (R39, R47). -/
theorem steps_then_command {w : CommandWord} (hp : s.program = e :: .command w :: rest)
    (he : runEvent e { s with program := .command w :: rest } =
      .next (startJob dir source { s with program := .command w :: rest }))
    (hb : s.busy = false) (hj : s.job = none) (hk : s.kvalid = true)
    (hpos : 0 < source.length) (h8 : source.length % 8 = 0) :
    ∃ t, steps (source.length / 8 + 1) s = .next t ∧
      t.results = s.results ++ [.ok (codecOutput s.ks dir source) source.length] ∧
      t.ks = s.ks ∧ t.kvalid = true ∧ step t = exec (decode w) { t with program := rest } := by
  obtain ⟨t, ht, hended, _⟩ := steps_of_operationEvent hp he hb hj hk rfl hpos h8
  exact ⟨t, ht, hended.results, hended.frame.ks, hended.frame.kvalid.trans hk,
    stepRunsTheDecodedCommand t w rest hended.frame.program hended.ready hended.job⟩

/-- As a whole program it has the outcome that R177 describes. -/
theorem outcomeOf_operationEvent (hp : s.program = [e])
    (he : runEvent e { s with program := [] } = .next (startJob dir source { s with program := [] }))
    (hb : s.busy = false) (hj : s.job = none) (hk : s.kvalid = true)
    (hpos : 0 < source.length) (h8 : source.length % 8 = 0) :
    outcomeOf (source.length / 8 + 1) s = some {
      replies := blockReplies s.ks dir source (source.length / 8) ++
        [.result (.ok (codecOutput s.ks dir source) source.length)]
      kvalid := true
      ks := some s.ks } := by
  obtain ⟨t, ht, hended, hreplies⟩ := steps_of_operationEvent hp he hb hj hk True.intro hpos h8
  have hkvalid : t.kvalid = true := hended.frame.kvalid.trans hk
  have hstore : t.visibleStore = some s.ks := (if_pos hkvalid).trans (congrArg some hended.frame.ks)
  refine outcomeOf_eq_some_iff.2 ⟨t, ht, State.finished_iff.2 ⟨hended.frame.program, hended.ready, hended.job⟩, ?_⟩
  rw [hreplies, hkvalid, hstore]

end

/-- Settles O58: the start of either operation and its blocks are steps of the program, the core is then ready for the
next command, and a program of the operation alone has finished. -/
theorem operationEndsBeforeTheNextCommand : Obligations.OperationEndsBeforeTheNextCommand := by
  refine ⟨fun bytes w rest s hp hb hj hk => ?_, fun bytes w rest s hp hb hj hk hpos h8 => ?_,
    fun bytes s hp hb hj hk => ?_, fun bytes s hp hb hj hk hpos h8 => ?_⟩
  · obtain ⟨hpos, h8⟩ := padded_wholeBlocks bytes
    have hstart := startEncbuf_of_kvalid bytes (s := { s with program := .command w :: rest }) hk
    rw [encbuf_eq_codecOutput, ← padded_length]
    exact steps_then_command hp (congrArg _ hstart) hb hj hk hpos h8
  · have hstart := startDecbuf_of_kvalid (s := { s with program := .command w :: rest }) hk hpos h8
    rw [decbuf_of_wholeBlocks _ hpos h8]
    exact steps_then_command hp (congrArg _ hstart) hb hj hk hpos h8
  · obtain ⟨hpos, h8⟩ := padded_wholeBlocks bytes
    have hstart := startEncbuf_of_kvalid bytes (s := { s with program := [] }) hk
    rw [encbuf_eq_codecOutput, ← padded_length]
    exact outcomeOf_operationEvent hp (congrArg _ hstart) hb hj hk hpos h8
  · have hstart := startDecbuf_of_kvalid (s := { s with program := [] }) hk hpos h8
    rw [decbuf_of_wholeBlocks _ hpos h8]
    exact outcomeOf_operationEvent hp (congrArg _ hstart) hb hj hk hpos h8

end Sys2Proof.Machine
end
